-- ==== Sys2Proof/Word.lean ====
section
/-! DEFINITION. Words and the two fixed-size containers of the model: one record for each port, and a table of
`n` like records. Nothing here belongs to one rule of the spec; the widths are those of the window (spec/10, R170). -/

namespace Sys2Proof

/-- A window word, a data word: 16 bits. -/
abbrev Word := BitVec 16
/-- Half of a COMMAND word (R176). -/
abbrev Byte := BitVec 8
/-- A signal identifier, 0x000 to 0xFFF (R2). -/
abbrev Ident := BitVec 12
/-- A value of the time base, in microseconds (R106). -/
abbrev Time := BitVec 32

/-- The four ports (spec/00, Conventions). -/
inductive Port where
  | a | b | c | d
deriving DecidableEq, Repr

/-- The ports in the order in which the spec writes sets of them. -/
def Port.all : List Port := [.a, .b, .c, .d]

/-- The number that stands for a port in ARG0, ARG2 and source fields: 0 A, 1 B, 2 C, 3 D (R130, R176, R179). -/
def Port.number : Port → Nat
  | .a => 0
  | .b => 1
  | .c => 2
  | .d => 3

/-- One record for each port. -/
structure PerPort (α : Type) where
  a : α
  b : α
  c : α
  d : α
deriving DecidableEq, Repr

/-- The record of port `p`. -/
def PerPort.get {α : Type} (t : PerPort α) : Port → α
  | .a => t.a
  | .b => t.b
  | .c => t.c
  | .d => t.d

/-- `t` with the record of port `p` replaced. -/
def PerPort.set {α : Type} (t : PerPort α) (p : Port) (x : α) : PerPort α :=
  match p with
  | .a => { t with a := x }
  | .b => { t with b := x }
  | .c => { t with c := x }
  | .d => { t with d := x }

/-- The table whose record of port `p` is `f p`. -/
def PerPort.ofFn {α : Type} (f : Port → α) : PerPort α := ⟨f .a, f .b, f .c, f .d⟩

/-- The same record for every port. -/
def PerPort.fill {α : Type} (x : α) : PerPort α := ⟨x, x, x, x⟩

/-- A set of ports: no order, each port at most once (R4). -/
abbrev PortSet := PerPort Bool

/-- {}. -/
def PortSet.empty : PortSet := PerPort.fill false

/-- Is `p` in the set? -/
def PortSet.has (x : PortSet) (p : Port) : Bool := x.get p

/-- The set with `p` in it. -/
def PortSet.insert (x : PortSet) (p : Port) : PortSet := x.set p true

/-- The set without `p`. -/
def PortSet.erase (x : PortSet) (p : Port) : PortSet := x.set p false

/-- The ports in either set. -/
def PortSet.union (x y : PortSet) : PortSet := PerPort.ofFn fun p => x.has p || y.has p

/-- Is the set {}? -/
def PortSet.isEmpty (x : PortSet) : Bool := !(x.a || x.b || x.c || x.d)

/-- A table of exactly `n` records. -/
structure Table (n : Nat) (α : Type) where
  rows : List α
  size : rows.length = n
deriving DecidableEq, Repr

/-- Record `i` of the table. -/
def Table.get {n : Nat} {α : Type} (t : Table n α) (i : Fin n) : α :=
  t.rows.get (i.cast t.size.symm)

/-- The table with record `i` replaced. -/
def Table.set {n : Nat} {α : Type} (t : Table n α) (i : Fin n) (x : α) : Table n α :=
  ⟨t.rows.set i.val x, by rw [List.length_set, t.size]⟩

/-- The table with `f` applied to every record. -/
def Table.map {n : Nat} {α β : Type} (f : α → β) (t : Table n α) : Table n β :=
  ⟨t.rows.map f, by rw [List.length_map, t.size]⟩

/-- The table of `n` like records. -/
def Table.fill {α : Type} (n : Nat) (x : α) : Table n α :=
  ⟨List.replicate n x, List.length_replicate⟩

end Sys2Proof
end

