-- ==== Sys2Proof/Syntax.lean ====
section
/-! DEFINITION. The commands and events of the WX496: one constructor of `Instr` for each row of
spec/opcode_table.json, and the names of the commands a port writes to COMMAND (R176). -/

namespace Sys2Proof

/-- A slot number that names a slot: 0 to 95 (R1). -/
abbrev SlotIx := Fin 96

/-- The commands that have a code (R176). -/
inductive Command where
  | publish | view | release | request
  | claimToken | yieldToken
  | configureSlot | retireSlot | setHoldTimeout | setTime | setRejoinPolicy | expel | restart
  | freeze | resume | step | inspect | cancelHead
  | armWatch | disarmWatch | readCapture
  | rejoin | resetPort
deriving DecidableEq, Repr

/-- The steps of a detachment (R125 to R127). `orphan` is steps 6 and 7, which the part takes as one operation. -/
inductive DetachStep where
  | token | hold | publications | requests | notes | orphan
deriving DecidableEq, Repr

/-- What can happen to the part: one constructor for each row of spec/opcode_table.json.

For a command, `p` is the port that writes COMMAND and `n` is the low byte of the word it writes (the slot number of
R176, which a command that names no slot does not use); the arguments stand in the port's ARG words. -/
inductive Instr where
  /-- PUBLISH (R28) -/
  | publish (p : Port) (n : Byte)
  /-- VIEW (R54) -/
  | view (p : Port) (n : Byte)
  /-- RELEASE (R58) -/
  | release (p : Port) (n : Byte)
  /-- REQUEST (R91) -/
  | request (p : Port) (n : Byte)
  /-- CLAIM_TOKEN (R138) -/
  | claimToken (p : Port) (n : Byte)
  /-- YIELD_TOKEN (R139) -/
  | yieldToken (p : Port) (n : Byte)
  /-- CONFIGURE_SLOT (R11) -/
  | configureSlot (p : Port) (n : Byte)
  /-- RETIRE_SLOT (R14) -/
  | retireSlot (p : Port) (n : Byte)
  /-- SET_HOLD_TIMEOUT (R60) -/
  | setHoldTimeout (p : Port) (n : Byte)
  /-- SET_TIME (R110) -/
  | setTime (p : Port) (n : Byte)
  /-- SET_REJOIN_POLICY (R132) -/
  | setRejoinPolicy (p : Port) (n : Byte)
  /-- EXPEL (R130) -/
  | expel (p : Port) (n : Byte)
  /-- RESTART (R144) -/
  | restart (p : Port) (n : Byte)
  /-- FREEZE (R150) -/
  | freeze (p : Port) (n : Byte)
  /-- RESUME (R154) -/
  | resume (p : Port) (n : Byte)
  /-- STEP (R152) -/
  | step (p : Port) (n : Byte)
  /-- INSPECT (R157) -/
  | inspect (p : Port) (n : Byte)
  /-- CANCEL_HEAD (R158) -/
  | cancelHead (p : Port) (n : Byte)
  /-- ARM_WATCH (R160) -/
  | armWatch (p : Port) (n : Byte)
  /-- DISARM_WATCH (R161) -/
  | disarmWatch (p : Port) (n : Byte)
  /-- READ_CAPTURE (R166) -/
  | readCapture (p : Port) (n : Byte)
  /-- REJOIN (R131) -/
  | rejoin (p : Port) (n : Byte)
  /-- RESET_PORT (R183) -/
  | resetPort (p : Port) (n : Byte)
  /-- UNDEFINED_COMMAND (R171): a write to COMMAND whose high byte `code` is not defined. -/
  | undefinedCommand (p : Port) (code : Byte) (n : Byte)
  /-- REGISTER_WRITE (R169): a write of word `w` at offset `off` of the window. -/
  | registerWrite (p : Port) (off : BitVec 6) (w : Word)
  /-- ATTENTION_ENABLE_WRITE (R83) -/
  | attentionEnableWrite (p : Port) (w : Word)
  /-- RESULT_READ (R172) -/
  | resultRead (p : Port)
  /-- TIME_LOW_READ (R109) -/
  | timeLowRead (p : Port)
  /-- NOTE_TAKE (R79) -/
  | noteTake (p : Port)
  /-- DEVICE_RESET (R181): RESET_n goes low. -/
  | deviceReset
  /-- DEVICE_RESET_RELEASE (R181): RESET_n rises. -/
  | deviceResetRelease
  /-- PORT_RESET (R182): an edge of PxRST_n. A high line goes low, which resets port `p`; a low one goes high again (log entry 21). -/
  | portReset (p : Port)
  /-- RESET_PORT_DONE (R183) -/
  | resetPortDone (p : Port)
  /-- TAKE_NEXT_VALUE (R34) -/
  | takeNextValue
  /-- LANDING_SERVICE (R97) -/
  | landingService
  /-- LANDING_NOTIFICATION (R71) -/
  | landingNotification
  /-- LANDING_TIME_PART (R112) -/
  | landingTimePart
  /-- LANDING_END (R39) -/
  | landingEnd
  /-- VIEW_GRANT (R56): port `p`'s waiting VIEW is granted. -/
  | viewGrant (p : Port)
  /-- HOLD_EXPIRY (R61): port `p`'s hold expires. -/
  | holdExpiry (p : Port)
  /-- DEADLINE_EXPIRY (R98): slot `k`'s deadline expires. -/
  | deadlineExpiry (k : SlotIx)
  /-- FRESHNESS_EXPIRY (R113): slot `k`'s freshness timer expires. -/
  | freshnessExpiry (k : SlotIx)
  /-- QUIET_INTERVAL_END (R133): port `p`'s quiet interval ends. -/
  | quietIntervalEnd (p : Port)
  /-- DETACHMENT (R124): the detachment of port `p` begins its steps, or goes on with them, up to and including
  the step `upTo`; `orphan`, the last, is the whole of it. Other events may come between two such runs (R124). -/
  | detachment (p : Port) (upTo : DetachStep)
  /-- RESTART_BEGIN (R145) -/
  | restartBegin
  /-- RESTART_END (R146) -/
  | restartEnd
  /-- TIME_BASE_ADVANCE (R106): one cycle of CLK. -/
  | timeBaseAdvance
deriving DecidableEq, Repr

end Sys2Proof
end

