-- ==== Sys2Proof/Decode.lean ====
section
/-! DEFINITION. Numbers that stand for commands. spec/opcode_table.json gives no row any bits, so no word spells a
row; the codes of COMMAND are R176's. -/

namespace Sys2Proof

/-- The command a word of the opcode table spells. The table gives no row any bits ("fields" is empty in every row),
so no word spells one. -/
def decodeTableWord (_nbits _w : Nat) : Option Instr := none

/-- The code of each command (R176). -/
def Command.code : Command → Byte
  | .publish => 0x01#8
  | .view => 0x02#8
  | .release => 0x03#8
  | .request => 0x04#8
  | .claimToken => 0x10#8
  | .yieldToken => 0x11#8
  | .configureSlot => 0x20#8
  | .retireSlot => 0x21#8
  | .setHoldTimeout => 0x22#8
  | .setTime => 0x23#8
  | .setRejoinPolicy => 0x24#8
  | .expel => 0x25#8
  | .restart => 0x26#8
  | .freeze => 0x30#8
  | .resume => 0x31#8
  | .step => 0x32#8
  | .inspect => 0x33#8
  | .cancelHead => 0x34#8
  | .armWatch => 0x38#8
  | .disarmWatch => 0x39#8
  | .readCapture => 0x3A#8
  | .rejoin => 0x40#8
  | .resetPort => 0x7F#8

/-- Every command that has a code, in the order of R176. -/
def Command.all : List Command :=
  [.publish, .view, .release, .request, .claimToken, .yieldToken, .configureSlot, .retireSlot, .setHoldTimeout,
   .setTime, .setRejoinPolicy, .expel, .restart, .freeze, .resume, .step, .inspect, .cancelHead, .armWatch,
   .disarmWatch, .readCapture, .rejoin, .resetPort]

/-- The command a code stands for; every other code, 0x00 included, is not defined (R176). -/
def Command.ofCode (b : Byte) : Option Command := Command.all.find? fun c => c.code == b

/-- The high byte of a COMMAND word: the command code, bits 15–8 (R176). -/
def commandCode (w : Word) : Byte := w.extractLsb' 8 8

/-- The low byte of a COMMAND word: the slot number, bits 7–0 (R176). -/
def commandSlot (w : Word) : Byte := w.extractLsb' 0 8

/-- The event that a write of `w` to COMMAND by port `p` is (R171, R176). -/
def decodeCommandWord (p : Port) (w : Word) : Instr :=
  let n := commandSlot w
  match Command.ofCode (commandCode w) with
  | none => .undefinedCommand p (commandCode w) n
  | some .publish => .publish p n
  | some .view => .view p n
  | some .release => .release p n
  | some .request => .request p n
  | some .claimToken => .claimToken p n
  | some .yieldToken => .yieldToken p n
  | some .configureSlot => .configureSlot p n
  | some .retireSlot => .retireSlot p n
  | some .setHoldTimeout => .setHoldTimeout p n
  | some .setTime => .setTime p n
  | some .setRejoinPolicy => .setRejoinPolicy p n
  | some .expel => .expel p n
  | some .restart => .restart p n
  | some .freeze => .freeze p n
  | some .resume => .resume p n
  | some .step => .step p n
  | some .inspect => .inspect p n
  | some .cancelHead => .cancelHead p n
  | some .armWatch => .armWatch p n
  | some .disarmWatch => .disarmWatch p n
  | some .readCapture => .readCapture p n
  | some .rejoin => .rejoin p n
  | some .resetPort => .resetPort p n

/-- The port and the command of an event that is a write to COMMAND with a defined code. -/
def Instr.command? : Instr → Option (Port × Command × Byte)
  | .publish p n => some (p, .publish, n)
  | .view p n => some (p, .view, n)
  | .release p n => some (p, .release, n)
  | .request p n => some (p, .request, n)
  | .claimToken p n => some (p, .claimToken, n)
  | .yieldToken p n => some (p, .yieldToken, n)
  | .configureSlot p n => some (p, .configureSlot, n)
  | .retireSlot p n => some (p, .retireSlot, n)
  | .setHoldTimeout p n => some (p, .setHoldTimeout, n)
  | .setTime p n => some (p, .setTime, n)
  | .setRejoinPolicy p n => some (p, .setRejoinPolicy, n)
  | .expel p n => some (p, .expel, n)
  | .restart p n => some (p, .restart, n)
  | .freeze p n => some (p, .freeze, n)
  | .resume p n => some (p, .resume, n)
  | .step p n => some (p, .step, n)
  | .inspect p n => some (p, .inspect, n)
  | .cancelHead p n => some (p, .cancelHead, n)
  | .armWatch p n => some (p, .armWatch, n)
  | .disarmWatch p n => some (p, .disarmWatch, n)
  | .readCapture p n => some (p, .readCapture, n)
  | .rejoin p n => some (p, .rejoin, n)
  | .resetPort p n => some (p, .resetPort, n)
  | .undefinedCommand _ _ _ | .registerWrite _ _ _ | .attentionEnableWrite _ _ => none
  | .resultRead _ | .timeLowRead _ | .noteTake _ => none
  | .deviceReset | .deviceResetRelease | .portReset _ | .resetPortDone _ => none
  | .takeNextValue | .landingService | .landingNotification | .landingTimePart | .landingEnd => none
  | .viewGrant _ | .holdExpiry _ | .deadlineExpiry _ | .freshnessExpiry _ | .quietIntervalEnd _ => none
  | .detachment _ _ | .restartBegin | .restartEnd | .timeBaseAdvance => none

/-- The word that a port writes to COMMAND to issue the command of an event, where the event is a write to COMMAND
(R176): the code above the slot number. -/
def encodeCommandWord (i : Instr) : Option (Port × Word) :=
  match i.command? with
  | some (p, c, n) => some (p, c.code ++ n)
  | none =>
    match i with
    | .undefinedCommand p code n => some (p, code ++ n)
    | _ => none

end Sys2Proof
end

