-- ==== Sys2Proof/Config.lean ====
section
/-! DEFINITION. The numbers the spec fixes for the part, and the one free value of the model: the order the part
takes where the spec says that either order may be taken inside one step. -/

namespace Sys2Proof.Config

/-- The Publication Queue holds at most 8 entries (R32). -/
def queueLimit : Nat := 8
/-- At most 4 of them come from any one port (R32). -/
def portLimit : Nat := 4
/-- A Notification Queue has 15 places for ordinary notes (R77). -/
def ordinaryLimit : Nat := 15
/-- The capture list holds up to 8 entries (R159). -/
def captureLimit : Nat := 8

/-- A penalised refusal, and a command overrun (R118). -/
def refusalPenalty : Nat := 4
/-- A hold expiry (R61, R118). -/
def holdPenalty : Nat := 8
/-- A missed request deadline, to the owner (R98, R118). -/
def deadlinePenalty : Nat := 8
/-- A LOST note appended (R77, R118). -/
def lostPenalty : Nat := 16

/-- The highest score (R119, R122). -/
def scoreMax : Nat := 255
/-- WARN is set while the score is 96 or more (R121). -/
def warnAt : Nat := 96
/-- An ACTIVE port becomes DEGRADED at 128 (R119). -/
def degradeAt : Nat := 128
/-- A DEGRADED port becomes ACTIVE at 64 (R120). -/
def restoreAt : Nat := 64

/-- The length of a quiet interval: 256 µs (R133). -/
def quietSpan : Time := 256#32
/-- The number of quiet intervals that bring a port back (R133). -/
def quietCount : Nat := 16

/-- One millisecond in time base units (R89, R112). -/
def millisecond : Time := 1000#32
/-- The unit of the hold timeout: 16 µs (R60). -/
def holdUnit : Time := 16#32

/-- FREE VALUE (log entry 3). The part's choice number `n` among the orders that the spec leaves open inside one
step. It has no body: no proof can lean on what it is. -/
opaque freeChoice : Nat → Nat

end Sys2Proof.Config
end

