-- ==== Sys2Proof/Machine/State.lean ====
section
/-! DEFINITION. The state of the WX496: every record the spec gives each of its blocks, as plain data, and its value
after device reset. Records that the spec defines from others (a slot's hold set, its landing-in-progress mark, the
overflow state, the attention output, SUSPECT) are functions over this state, in Machine/Ops.lean and Machine/Flags.lean. -/

namespace Sys2Proof.Machine

open Sys2Proof

/-! ### Slots (R1 to R6) -/

/-- Who published a value: a port, or the exchange itself for an echo (R31). -/
inductive Source where
  | port (p : Port)
  | exchange
deriving DecidableEq, Repr

/-- The state of a slot (R7). -/
inductive SlotState where
  | unused | opened | live | retiring
deriving DecidableEq, Repr

/-- STATE or EVENT (R2). -/
inductive Kind where
  | state | event
deriving DecidableEq, Repr

/-- OWNER_ANSWERS or AUTO_ANSWER (R2). -/
inductive AnswerMode where
  | ownerAnswers | autoAnswer
deriving DecidableEq, Repr

/-- The configuration of a slot (R2). -/
structure SlotConfig where
  identifier : Ident
  owner : Port
  kind : Kind
  answer : AnswerMode
  /-- 1 to 8 words. -/
  maxLength : BitVec 4
  /-- In ms; 0: no freshness timing. -/
  freshnessLimit : BitVec 12
  /-- In ms; 0: not requestable. -/
  requestDeadline : BitVec 8
deriving DecidableEq, Repr

/-- The cleared configuration (R2). -/
def SlotConfig.cleared : SlotConfig :=
  { identifier := 0#12, owner := .a, kind := .state, answer := .ownerAnswers, maxLength := 1#4,
    freshnessLimit := 0#12, requestDeadline := 0#8 }

/-- The value part of a slot (R3). -/
structure SlotValue where
  /-- 0 to 8. -/
  length : BitVec 4
  data : Table 8 Word
  sequence : Word
  stamp : Time
  echo : Bool
deriving DecidableEq, Repr

/-- The value part of a slot in which nothing has landed (R3, R11). -/
def SlotValue.cleared : SlotValue :=
  { length := 0#4, data := Table.fill 8 0#16, sequence := 0#16, stamp := 0#32, echo := false }

/-- A value on its way: an entry of the Publication Queue, and the same value as pending, due or in-flight value
(R5, R30, R31). It is an echo when its source is the exchange. `order` is the model's own: its place in acceptance
order (R44, R45). -/
structure Offer where
  source : Source
  slot : SlotIx
  length : BitVec 4
  data : Table 8 Word
  stamp : Time
  /-- The requester snapshot flag (R33). -/
  snapshot : Bool
  /-- The watch-passed mark (R36). -/
  passed : Bool
  order : Nat
deriving DecidableEq, Repr

/-- A slot record (R1). -/
structure Slot where
  config : SlotConfig
  state : SlotState
  value : SlotValue
  stale : Bool
  orphaned : Bool
  unread : PortSet
  missed : PortSet
  requesters : PortSet
  /-- The pending value, ripe or not (R5). -/
  parked : Option Offer
  /-- The request deadline: disarmed, or armed with its expiry time (R6). -/
  deadline : Option Time
  /-- The freshness timer: disarmed, or armed with its expiry time (R6). -/
  freshness : Option Time
deriving DecidableEq, Repr

/-- An unconfigured slot (R2, R16, R23). -/
def Slot.cleared : Slot :=
  { config := SlotConfig.cleared, state := .unused, value := SlotValue.cleared, stale := false, orphaned := false,
    unread := PortSet.empty, missed := PortSet.empty, requesters := PortSet.empty, parked := none, deadline := none,
    freshness := none }

/-- The in-flight landing (R37, R39): the value, and how far its three parts have come. -/
structure Landing where
  offer : Offer
  /-- The list of served requesters, once the Request Unit has taken the service (R97). -/
  served : Option PortSet
  /-- The Notification Unit's part is finished (R71). -/
  notified : Bool
  /-- The Time Unit's part is finished (R112). -/
  timed : Bool
deriving DecidableEq, Repr

/-! ### Views (R52, R53) -/

/-- What a slot's current value is to the viewing port (R19). NOT_HELD is the absence of a hold. -/
inductive ViewState where
  | none | new | missed | seen
deriving DecidableEq, Repr

/-- A port's hold: the View Unit's hold record and the Port Unit's view record, which always agree (R52, R53). -/
structure Hold where
  slot : SlotIx
  expiry : Time
  viewState : ViewState
  identifier : Ident
deriving DecidableEq, Repr

/-! ### Notes (R68, R73, R84) -/

/-- One of a port's eight filters (R68). -/
structure Filter where
  identifier : Ident
  mask : Ident
  enabled : Bool
deriving DecidableEq, Repr

/-- A disabled filter (R69). -/
def Filter.cleared : Filter := { identifier := 0#12, mask := 0#12, enabled := false }

/-- The reason of a note (R73). -/
inductive Reason where
  | newValue | stale | request | requestTimeout | holdExpired | dropped | retired | orphaned | lost
deriving DecidableEq, Repr

/-- A note (R73). -/
structure Note where
  reason : Reason
  slot : SlotIx
  identifier : Ident
  sequence : Word
  reply : Bool
  coalesced : Bool
  isSealed : Bool
  stamp : Word
deriving DecidableEq, Repr

/-- A port's delivery state at the Notification Unit (R84). -/
inductive Delivery where
  | delivering | closed
deriving DecidableEq, Repr

/-- What the Notification Unit keeps for one port. -/
structure NoteUnit where
  filters : Table 8 Filter
  /-- The Notification Queue, head first. -/
  queue : List Note
  delivery : Delivery
deriving DecidableEq, Repr

/-- A port's notification record after device reset (R69, R88). -/
def NoteUnit.reset : NoteUnit := { filters := Table.fill 8 Filter.cleared, queue := [], delivery := .delivering }

/-! ### The Port Unit (R26, R81, R83, R109, R156, R171) -/

/-- The result codes (R175). -/
inductive Result where
  | done | badCommand | badArgument | noSlot | retiring | notOwner | badLength | queueFull | portLimit | notHeld
  | ownSlot | notRequestable | orphaned | noValue | degraded | detached | noToken | tokenHeld | slotInUse | idInUse
  | notFrozen | nothingQueued | notDetached
deriving DecidableEq, Repr

/-- Where a BUSY command stands. -/
inductive Phase where
  /-- With its owning block, which has not yet posted its result. -/
  | taken
  /-- Waiting through a restart, not yet passed to its block (R147). -/
  | afterRestart
  /-- A VIEW that waits behind a landing on slot `k` (R56). -/
  | behindLanding (k : SlotIx)
  /-- A waiting VIEW whose slot has become UNUSED: it is answered RETIRING (R56). -/
  | slotGone
  /-- An EXPEL of `target`; `began` when it began the detachment, and otherwise it waits for one (R130). -/
  | expelling (target : Port) (began : Bool)
deriving DecidableEq, Repr

/-- A BUSY command: the code and slot number kept from the written word (R171), and where it stands. -/
structure Busy where
  command : Command
  slotByte : Byte
  phase : Phase
deriving DecidableEq, Repr

/-- A port's command unit: IDLE when `busy` is absent, the last result code and the two flags (R171 to R173). -/
structure CommandUnit where
  busy : Option Busy
  result : Result
  done : Bool
  overrun : Bool
deriving DecidableEq, Repr

/-- A command unit after a reset (R170, R184). -/
def CommandUnit.reset : CommandUnit := { busy := none, result := .done, done := false, overrun := false }

/-- The kinds of act the watch compares (R162). -/
inductive ActKind where
  | landing | view | request | config
deriving DecidableEq, Repr

/-- The action of a watch setting, and the action applied at a match (R159, R163). -/
inductive WatchAction where
  | record | freezeAfter | freezeBefore
deriving DecidableEq, Repr

/-- An entry of the capture list (R163). `detail` is the detail bit of R179: 0 for QUEUE, NEW, FIRST and CONFIGURE. -/
structure Capture where
  kind : ActKind
  detail : Bool
  slot : SlotIx
  source : Source
  identifier : Ident
  sequence : Word
  stamp : Time
  matchNumber : Word
  action : WatchAction
deriving DecidableEq, Repr

/-- What an INSPECT copies (R157). -/
structure Inspection where
  position : BitVec 3
  queueCount : Nat
  ripeCount : Nat
  source : Source
  slot : SlotIx
  length : BitVec 4
  word0 : Word
  stamp : Time
  snapshot : Bool
  passed : Bool
deriving DecidableEq, Repr

/-- What a READ_CAPTURE copies (R166); `entry` is absent for the empty entry. -/
structure CaptureReading where
  index : BitVec 3
  present : Nat
  matchCount : Word
  armed : Bool
  entry : Option Capture
deriving DecidableEq, Repr

/-- A port's maintenance record (R156). -/
inductive Maintenance where
  | none
  | inspect (r : Inspection)
  | capture (r : CaptureReading)
deriving DecidableEq, Repr

/-- The records of one Port Unit. -/
structure PortUnit where
  arg0 : Word
  arg1 : Word
  arg2 : Word
  composeLength : Word
  composeData : Table 8 Word
  unit : CommandUnit
  /-- The note latch: the note last taken, or the empty reading (R81). -/
  latch : Option Note
  notesEnable : Bool
  doneEnable : Bool
  timeLatch : Word
  maintenance : Maintenance
  /-- The model's own: the word that the port's last read with a side effect returned (R168, R169). -/
  lastRead : Option Word
deriving DecidableEq, Repr

/-- A Port Unit after device reset or port reset (R170, R184). -/
def PortUnit.reset : PortUnit :=
  { arg0 := 0#16, arg1 := 0#16, arg2 := 0#16, composeLength := 0#16, composeData := Table.fill 8 0#16,
    unit := CommandUnit.reset, latch := none, notesEnable := false, doneEnable := false, timeLatch := 0#16,
    maintenance := .none, lastRead := none }

/-! ### Health (R117) -/

/-- The health state of a port (R117). -/
inductive HealthState where
  | active | degraded | detached | rejoining
deriving DecidableEq, Repr

/-- The detach cause (R117). -/
inductive DetachCause where
  | none | score | expelled
deriving DecidableEq, Repr

/-- The health record of a port (R117). -/
structure Health where
  state : HealthState
  score : Nat
  warn : Bool
  cause : DetachCause
  /-- The detaching mark. -/
  mark : Bool
  rejoinCount : Nat
  /-- The quiet interval: disarmed, or armed with its end time. -/
  quiet : Option Time
  autoRejoin : Bool
deriving DecidableEq, Repr

/-- A health record after device reset (R117). -/
def Health.reset : Health :=
  { state := .active, score := 0, warn := false, cause := .none, mark := false, rejoinCount := 0, quiet := none,
    autoRejoin := false }

/-- What a block reports to the Health Unit (R118, R133). -/
inductive ReportKind where
  | penalty (n : Nat)
  | credit
  | disturbance
deriving DecidableEq, Repr

/-- A report for port `port`, by the Notification Unit or by another block. -/
structure Report where
  port : Port
  kind : ReportKind
  byNotification : Bool
deriving DecidableEq, Repr

/-! ### Control and Watch (R137, R159) -/

/-- The exchange state (R137). -/
inductive Exchange where
  | running | freezing | frozen | stepping | restarting
deriving DecidableEq, Repr

/-- The item that the Control Unit chose for a STEP (R152): a ripe value by its slot, or the head entry by its place in
acceptance order. -/
inductive Item where
  | ripe (k : SlotIx)
  | head (order : Nat)
deriving DecidableEq, Repr

/-- What a STEPPING exchange is doing (R149): a step of one item, or the drain of a RESUME, directed at a slot. -/
inductive Task where
  | step (item : Item)
  | drain (k : SlotIx)
deriving DecidableEq, Repr

/-- What the Watch Unit keeps (R159). An absent `slot` or `source` is ANY. -/
structure Watch where
  armed : Bool
  slot : Option SlotIx
  source : Option Source
  onLanding : Bool
  onView : Bool
  onRequest : Bool
  onConfig : Bool
  action : WatchAction
  /-- The capture list, oldest first. -/
  captures : List Capture
  matchCount : Word
deriving DecidableEq, Repr

/-- The Watch Unit after device reset (R159). -/
def Watch.reset : Watch :=
  { armed := false, slot := none, source := none, onLanding := false, onView := false, onRequest := false,
    onConfig := false, action := .record, captures := [], matchCount := 0#16 }

/-! ### The whole part -/

/-- The state of the part, block by block. -/
structure State where
  /-- The commands and events that wait, first in, first out (the model's queue). -/
  pending : List Instr
  /-- RESET_n is low (R181). -/
  inReset : Bool
  /-- The ports whose line PxRST_n is low (R182). -/
  lineLow : PortSet
  /-- The Port Units. -/
  ports : PerPort PortUnit
  /-- The Slot Table. -/
  slots : Table 96 Slot
  /-- Commit Unit: the Publication Queue, head first (R31). -/
  queue : List Offer
  /-- Commit Unit: the due list, earliest accepted first (R44). -/
  due : List Offer
  /-- Commit Unit: the ripe list, earliest accepted first (R45). -/
  ripe : List SlotIx
  /-- Commit Unit: the in-flight landing (R37). -/
  flight : Option Landing
  /-- The model's own: the place in acceptance order of the next entry. -/
  nextOrder : Nat
  /-- View Unit: the hold records, with the view records (R52, R53). -/
  holds : PerPort (Option Hold)
  /-- View Unit: the hold timeout, in units of 16 µs (R60). -/
  holdTimeout : Byte
  /-- The Notification Unit's record of each port. -/
  notes : PerPort NoteUnit
  /-- Request Unit: the lost-owner set (R89). -/
  lostOwners : PortSet
  /-- Time Unit: the time base (R106). -/
  time : Time
  /-- Time Unit: the prescaler, 0 to 15 (R106). -/
  prescaler : BitVec 4
  /-- The health records (R117). -/
  health : PerPort Health
  /-- Health Unit: the running detachment and the next step it will take (R124). -/
  detaching : Option (Port × DetachStep)
  /-- Health Unit: the detachments that wait, in the order in which their marks were set; ports whose marks were set
  together stand in one list (R124). -/
  detachQueue : List (List Port)
  /-- Health Unit: the reports of the command in hand, oldest first; empty between commands. -/
  reports : List Report
  /-- Control Unit: the token; absent when FREE (R137). -/
  token : Option Port
  /-- Control Unit: the exchange state (R137). -/
  exchange : Exchange
  /-- Control Unit: the restart mark (R137). -/
  restartMark : Bool
  /-- Control Unit: the freeze mark (R137). -/
  freezeMark : Bool
  /-- Control Unit: what a STEPPING exchange is doing (R152, R155). -/
  task : Option Task
  /-- The Watch Unit. -/
  watch : Watch
  /-- The model's own: how many free choices have been made. -/
  freeCount : Nat
deriving DecidableEq, Repr

/-- The reasons for which the machine stops with a fault. There is none: the part raises no bus errors, and every
trouble reaches the ports as a result, a note, a status word or a flag (spec/00, General Description). Safe. -/
inductive Fault where
deriving DecidableEq, Repr

/-- The reasons for which a command has no meaning. -/
inductive Refusal where
  /-- A command that is not modelled, raised by an arm of `exec`; no arm of this model raises it. Safe. -/
  | notModelled (mnemonic : String)
deriving DecidableEq, Repr

/-- The part after device reset, RESET_n high again, with nothing waiting: the values of R23, R50, R67, R69, R88, R104,
R106, R109, R117, R137, R159 and R170. The model's own fields (`nextOrder`, `freeCount`, `lastRead`, `reports`) start
empty (log entries 2, 3, 5 and 6), and every PxRST_n is high (log entry 21). -/
def State.reset : State :=
  { pending := [], inReset := false, lineLow := PortSet.empty, ports := PerPort.fill PortUnit.reset,
    slots := Table.fill 96 Slot.cleared,
    queue := [], due := [], ripe := [], flight := none, nextOrder := 0, holds := PerPort.fill none,
    holdTimeout := 64#8, notes := PerPort.fill NoteUnit.reset, lostOwners := PortSet.empty, time := 0#32,
    prescaler := 0#4, health := PerPort.fill Health.reset, detaching := none, detachQueue := [], reports := [],
    token := none, exchange := .running, restartMark := false, freezeMark := false, task := none,
    watch := Watch.reset, freeCount := 0 }

/-- The outcome of a command. -/
abbrev Out := Host.Outcome State Fault Refusal

end Sys2Proof.Machine
end

