-- ==== Sys2Proof/Machine/Ops.lean ====
section
/-! DEFINITION. The shared operations over the state: reading and updating one record, the derived records (hold sets,
the landing-in-progress mark), the free choices, the command unit's posting of results and the reports to the Health Unit. -/

namespace Sys2Proof.Machine

open Sys2Proof

/-! ### Records -/

/-- Port `p`'s Port Unit. -/
def State.port (s : State) (p : Port) : PortUnit := s.ports.get p

/-- `s` with port `p`'s Port Unit changed by `f`. -/
def State.modPort (s : State) (p : Port) (f : PortUnit → PortUnit) : State :=
  { s with ports := s.ports.set p (f (s.port p)) }

/-- Slot record `k`. -/
def State.slot (s : State) (k : SlotIx) : Slot := s.slots.get k

/-- `s` with slot record `k` changed by `f`. -/
def State.modSlot (s : State) (k : SlotIx) (f : Slot → Slot) : State :=
  { s with slots := s.slots.set k (f (s.slot k)) }

/-- `s` with every slot record changed by `f`. -/
def State.mapSlots (s : State) (f : Slot → Slot) : State := { s with slots := s.slots.map f }

/-- The Notification Unit's record of port `p`. -/
def State.noteUnit (s : State) (p : Port) : NoteUnit := s.notes.get p

/-- `s` with the Notification Unit's record of port `p` changed by `f`. -/
def State.modNotes (s : State) (p : Port) (f : NoteUnit → NoteUnit) : State :=
  { s with notes := s.notes.set p (f (s.noteUnit p)) }

/-- The health record of port `p`. -/
def State.healthOf (s : State) (p : Port) : Health := s.health.get p

/-- `s` with the health record of port `p` changed by `f`. -/
def State.modHealth (s : State) (p : Port) (f : Health → Health) : State :=
  { s with health := s.health.set p (f (s.healthOf p)) }

/-- Port `p`'s hold. -/
def State.hold (s : State) (p : Port) : Option Hold := s.holds.get p

/-- `s` with port `p`'s hold replaced. -/
def State.setHold (s : State) (p : Port) (h : Option Hold) : State := { s with holds := s.holds.set p h }

/-- Every slot number, rising. -/
def allSlots : List SlotIx := List.finRange 96

/-- The slot a slot number of COMMAND names: none above 95 (R1, R176). -/
def slotOf (n : Byte) : Option SlotIx := if h : n.toNat < 96 then some ⟨n.toNat, h⟩ else none

/-! ### Derived records -/

/-- Does port `p` hold slot `k`? -/
def State.holding (s : State) (p : Port) (k : SlotIx) : Bool :=
  match s.hold p with
  | some h => h.slot == k
  | none => false

/-- The hold set of slot `k`: the ports whose hold records are HELD on it (R52). -/
def State.holdSet (s : State) (k : SlotIx) : PortSet := PerPort.ofFn fun p => s.holding p k

/-- Slot `k`'s landing-in-progress mark: set while the in-flight landing is on it (R5, R37). -/
def State.landingMark (s : State) (k : SlotIx) : Bool :=
  match s.flight with
  | some l => l.offer.slot == k
  | none => false

/-- Is the port outside the exchange: DETACHED or REJOINING? -/
def HealthState.outside : HealthState → Bool
  | .detached | .rejoining => true
  | .active | .degraded => false

/-- Is port `p` ACTIVE or DEGRADED? -/
def State.inside (s : State) (p : Port) : Bool := !(s.healthOf p).state.outside

/-- Does the time base run? In RUNNING and FREEZING alone (R107). -/
def State.timeRuns (s : State) : Bool := s.exchange == .running || s.exchange == .freezing

/-- Has the time base reached the time `t`? Compared with wrap-around (R6, R61, R89, R133): every interval of the part is
shorter than half a turn of the time base (R108). -/
def State.reached (s : State) (t : Time) : Bool := !(s.time - t).msb

/-! ### Free choices (log entry 3) -/

/-- A free number below `n`, and the state in which that choice has been made. With one possibility or none there is
nothing to choose. -/
def State.pick (s : State) (n : Nat) : Nat × State :=
  if n ≤ 1 then (0, s) else (Config.freeChoice s.freeCount % n, { s with freeCount := s.freeCount + 1 })

/-- The list in a free order; `fuel` is at least its length. -/
def shuffleFuel {α : Type} : Nat → List α → State → List α × State
  | 0, l, s => (l, s)
  | fuel + 1, l, s =>
    match l with
    | [] => ([], s)
    | x :: rest =>
      let c := s.pick (x :: rest).length
      let y := ((x :: rest)[c.1]?).getD x
      let r := shuffleFuel fuel ((x :: rest).eraseIdx c.1) c.2
      (y :: r.1, r.2)

/-- The list in a free order. -/
def State.shuffle {α : Type} (s : State) (l : List α) : List α × State := shuffleFuel l.length l s

/-! ### Reports (R118, R133) -/

/-- A block other than the Notification Unit reports to the Health Unit. -/
def State.report (s : State) (p : Port) (k : ReportKind) : State :=
  { s with reports := s.reports ++ [{ port := p, kind := k, byNotification := false }] }

/-- The Notification Unit reports to the Health Unit. -/
def State.noteReport (s : State) (p : Port) (k : ReportKind) : State :=
  { s with reports := s.reports ++ [{ port := p, kind := k, byNotification := true }] }

/-! ### The command unit (R171, R172) -/

/-- Is the refusal penalised (R118, R175)? -/
def Result.penalised : Result → Bool
  | .badCommand | .badArgument | .noSlot | .notOwner | .badLength | .ownSlot | .noToken => true
  | .done | .retiring | .queueFull | .portLimit | .notHeld | .notRequestable | .orphaned | .noValue | .degraded => false
  | .detached | .tokenHeld | .slotInUse | .idInUse | .notFrozen | .nothingQueued | .notDetached => false

/-- The command unit with a result posted: the code written, IDLE, the done flag set (R172). -/
def CommandUnit.posted (u : CommandUnit) (r : Result) : CommandUnit :=
  { u with busy := none, result := r, done := true }

/-- A block posts the result of port `p`'s command (R172). A command that has been abandoned or answered has no
result left to post. -/
def State.post (s : State) (p : Port) (r : Result) : State :=
  s.modPort p fun u => if u.unit.busy.isSome then { u with unit := u.unit.posted r } else u

/-- A refusal: its result is posted, and the block that posts it reports it, as a penalty of 4 where it is penalised.
Any refusal to a REJOINING port is a disturbance (R118, R133). -/
def State.refuse (s : State) (p : Port) (r : Result) : State :=
  (s.post p r).report p (if r.penalised then .penalty Config.refusalPenalty else .disturbance)

/-- Where port `p`'s BUSY command stands, if it has one. -/
def State.phaseOf (s : State) (p : Port) : Option Phase := (s.port p).unit.busy.map fun b => b.phase

/-- Port `p`'s BUSY command is put in phase `ph`. -/
def State.setPhase (s : State) (p : Port) (ph : Phase) : State :=
  s.modPort p fun u => { u with unit := { u.unit with busy := u.unit.busy.map fun b => { b with phase := ph } } }

/-- Is port `p`'s BUSY command the command `c`, taken and not finished? -/
def State.inHand (s : State) (p : Port) (c : Command) : Bool :=
  match (s.port p).unit.busy with
  | some b => b.command == c && b.phase == .taken
  | none => false

/-- Every taken and unfinished command `c` completes with DONE. -/
def State.completeAll (s : State) (c : Command) : State :=
  Port.all.foldl (fun t p => if t.inHand p c then t.post p .done else t) s

/-- A command of `p`'s that is BUSY is answered DETACHED, other than RESET_PORT (R124). -/
def State.answerDetached (s : State) (p : Port) : State :=
  match (s.port p).unit.busy with
  | some b => if b.command = .resetPort then s else s.post p .detached
  | none => s

/-! ### Acceptance order (R44, R45) -/

/-- `x` put into a list that rises by `key`, after the members not above it. -/
def insertBy {α : Type} (key : α → Nat) (x : α) : List α → List α
  | [] => [x]
  | y :: ys => if key y ≤ key x then y :: insertBy key x ys else x :: y :: ys

/-- The place in acceptance order of slot `k`'s pending value. -/
def State.parkedOrder (s : State) (k : SlotIx) : Nat := (s.slot k).parked.elim 0 fun o => o.order

/-- Slot `k` joins the ripe list, at its place in acceptance order, at most once (R45). -/
def State.ripen (s : State) (k : SlotIx) : State :=
  if k ∈ s.ripe then s else { s with ripe := insertBy s.parkedOrder k s.ripe }

/-- Slot `k` leaves the ripe list. -/
def State.unripen (s : State) (k : SlotIx) : State := { s with ripe := s.ripe.filter fun j => j != k }

/-- Is the value an echo (R31)? -/
def Offer.isEcho (o : Offer) : Bool := o.source == .exchange

end Sys2Proof.Machine
end

