-- ==== Sys2Proof/Machine/Flags.lean ====
section
/-! DEFINITION. The flags and outputs that the part derives from its records whenever they are read: SUSPECT, the
overflow state, the attention request and the attention output, WARN's rule. -/

namespace Sys2Proof.Machine

open Sys2Proof

/-- SUSPECT of slot `k`: its owner is DEGRADED (R22). -/
def State.suspect (s : State) (k : SlotIx) : Bool := (s.healthOf (s.slot k).config.owner).state == .degraded

/-- The overflow state is LOST_PENDING while a LOST note is in the queue, and NORMAL otherwise (R77). -/
def lostPending (q : List Note) : Bool := q.any fun n => n.reason == .lost

/-- The attention request for port `p`: its queue holds one note or more (R82). -/
def State.attentionRequest (s : State) (p : Port) : Bool := !(s.noteUnit p).queue.isEmpty

/-- Does port `p`'s Port Unit take bus cycles? Not while RESET_n or the port's PxRST_n is low (R168, R181, R182). -/
def State.takesCycles (s : State) (p : Port) : Bool := !s.inReset && !s.lineLow.has p

/-- Is port `p`'s attention output driven low (R82, R180)? Never while RESET_n or the port's PxRST_n is low. -/
def State.attention (s : State) (p : Port) : Bool :=
  s.takesCycles p &&
    (((s.port p).notesEnable && s.attentionRequest p) || ((s.port p).doneEnable && (s.port p).unit.done))

/-- WARN at a score: set at 96 or more (R121). -/
def warnOf (score : Nat) : Bool := decide (Config.warnAt ≤ score)

/-- A health record with its score changed, and WARN with it (R121). -/
def Health.withScore (h : Health) (n : Nat) : Health := { h with score := n, warn := warnOf n }

end Sys2Proof.Machine
end

