-- ==== Sys2Proof/Machine/Operands.lean ====
section
/-! DEFINITION. The operands of the commands: the fields of the argument words (R9, R130, R132, R157, R160, R166, R176), and
the window's stored words as operands of a write (R169, R178). -/

namespace Sys2Proof.Machine

open Sys2Proof

/-- The port that a number names: 0 A, 1 B, 2 C, 3 D, and none above 3 (R130, R132). -/
def portOfNumber (w : Word) : Option Port := Port.all.find? fun p => w == BitVec.ofNat 16 p.number

/-- A port from its 2-bit code (R176). -/
def portOfCode (c : BitVec 2) : Port :=
  if c = 0#2 then .a else if c = 1#2 then .b else if c = 2#2 then .c else .d

/-- The configuration that CONFIGURE_SLOT's arguments hold (R9, R176). Bits above a field's width fail the range checks
of R10 or are not used. -/
def configOfArgs (arg0 arg1 arg2 : Word) : SlotConfig :=
  { identifier := arg0.extractLsb' 0 12
    owner := portOfCode (arg2.extractLsb' 0 2)
    kind := if arg2.getLsbD 2 then .event else .state
    answer := if arg2.getLsbD 3 then .autoAnswer else .ownerAnswers
    maxLength := arg2.extractLsb' 4 4
    freshnessLimit := arg1.extractLsb' 0 12
    requestDeadline := arg2.extractLsb' 8 8 }

/-- Are CONFIGURE_SLOT's arguments out of range (R10, check 4)? -/
def badConfigArgs (arg0 arg1 arg2 : Word) : Bool :=
  decide (0x0FFF < arg0.toNat) || decide (4095 < arg1.toNat) ||
    (let m := (arg2.extractLsb' 4 4).toNat
     decide (m = 0) || decide (8 < m))

/-- The slot of a watch setting: 0 to 95, or 0x00FF for ANY (absent); none when out of range (R160). -/
def watchSlotOfArg (w : Word) : Option (Option SlotIx) :=
  if w = 0x00FF#16 then some none
  else if h : w.toNat < 96 then some (some ⟨w.toNat, h⟩)
  else none

/-- The source of a watch setting: 0 A to 3 D, 4 EXCHANGE, 5 ANY (absent); none when out of range (R160). -/
def watchSourceOfArg (w : Word) : Option (Option Source) :=
  if w = 5#16 then some none
  else if w = 4#16 then some (some .exchange)
  else (portOfNumber w).map fun p => some (.port p)

/-- The action of a watch setting, bits 5–4 of ARG2; none when above 2 (R160, R176). -/
def watchActionOfArg (w : Word) : Option WatchAction :=
  let c := w.extractLsb' 4 2
  if c = 0#2 then some .record else if c = 1#2 then some .freezeAfter
  else if c = 2#2 then some .freezeBefore else none

/-- An index from 0 to 7; none above 7 (R157, R166). -/
def indexOfArg (w : Word) : Option (BitVec 3) := if w.toNat ≤ 7 then some (w.extractLsb' 0 3) else none

/-- A number of milliseconds as an interval of the time base (R89, R112). -/
def milliseconds {n : Nat} (x : BitVec n) : Time := x.setWidth 32 * Config.millisecond

/-- An index into eight records, from the low three bits of an offset within them. -/
def eighth (n : Nat) : Fin 8 := ⟨n % 8, Nat.mod_lt _ (by decide)⟩

end Sys2Proof.Machine
end

