-- ==== Sys2Proof/Machine/Window.lean ====
section
/-! DEFINITION. The window: what a read of each of its 64 words returns (R63, R64, R81, R169, R170, R177 to R179), and what
a write of each stored word stores (R26, R68, R83, R169, R174). -/

namespace Sys2Proof.Machine

open Sys2Proof

/-! ### Codes of the fields -/

/-- The code of a result (R175). -/
def Result.code : Result → Byte
  | .done => 0x00#8
  | .badCommand => 0x01#8
  | .badArgument => 0x02#8
  | .noSlot => 0x03#8
  | .retiring => 0x04#8
  | .notOwner => 0x05#8
  | .badLength => 0x06#8
  | .queueFull => 0x07#8
  | .portLimit => 0x08#8
  | .notHeld => 0x09#8
  | .ownSlot => 0x0A#8
  | .notRequestable => 0x0B#8
  | .orphaned => 0x0C#8
  | .noValue => 0x0D#8
  | .degraded => 0x0E#8
  | .detached => 0x0F#8
  | .noToken => 0x10#8
  | .tokenHeld => 0x11#8
  | .slotInUse => 0x12#8
  | .idInUse => 0x13#8
  | .notFrozen => 0x14#8
  | .nothingQueued => 0x15#8
  | .notDetached => 0x16#8

/-- The code of a health state in PORT STATUS (R177). -/
def HealthState.code : HealthState → BitVec 2
  | .active => 0#2
  | .degraded => 1#2
  | .detached => 2#2
  | .rejoining => 3#2

/-- The code of a detach cause in PORT STATUS (R177). -/
def DetachCause.code : DetachCause → BitVec 2
  | .none => 0#2
  | .score => 1#2
  | .expelled => 2#2

/-- The code of an exchange state in PORT STATUS (R177). -/
def Exchange.code : Exchange → BitVec 3
  | .running => 0#3
  | .freezing => 1#3
  | .frozen => 2#3
  | .stepping => 3#3
  | .restarting => 4#3

/-- The code of a view state in VIEW HEADER; 0 is NOT_HELD (R178). -/
def ViewState.code : ViewState → BitVec 3
  | .none => 1#3
  | .new => 2#3
  | .missed => 3#3
  | .seen => 4#3

/-- The code of a slot state in VIEW HEADER (R178). A held slot is never UNUSED. -/
def SlotState.code : SlotState → BitVec 2
  | .unused => 0#2
  | .opened => 1#2
  | .live => 2#2
  | .retiring => 3#2

/-- The code of a note's reason in NOTE TAKE; 0 is NONE (R178). -/
def Reason.code : Reason → BitVec 4
  | .newValue => 1#4
  | .stale => 2#4
  | .request => 3#4
  | .requestTimeout => 4#4
  | .holdExpired => 5#4
  | .dropped => 6#4
  | .retired => 7#4
  | .orphaned => 8#4
  | .lost => 9#4

/-- The code of a source: 0 A, 1 B, 2 C, 3 D, 4 EXCHANGE (R179). -/
def Source.code : Source → BitVec 3
  | .port p => BitVec.ofNat 3 p.number
  | .exchange => 4#3

/-- The code of a kind of act in a capture entry; 0 is NONE (R179). -/
def ActKind.code : ActKind → BitVec 3
  | .landing => 1#3
  | .view => 2#3
  | .request => 3#3
  | .config => 4#3

/-- The code of an action applied (R179). -/
def WatchAction.code : WatchAction → BitVec 2
  | .record => 0#2
  | .freezeAfter => 1#2
  | .freezeBefore => 2#2

/-- A slot number in its seven bits (R178, R179). -/
def slotBits (k : SlotIx) : BitVec 7 := BitVec.ofNat 7 k.val

/-! ### The words -/

/-- RESULT (R177). -/
def CommandUnit.resultWord (u : CommandUnit) : Word :=
  BitVec.ofBool u.busy.isSome ++ BitVec.ofBool u.done ++ BitVec.ofBool u.overrun ++ 0#5 ++ u.result.code

/-- PORT STATUS (R177). -/
def State.statusWord (s : State) (p : Port) : Word :=
  let h := s.healthOf p
  0#1 ++ BitVec.ofNat 5 (s.noteUnit p).queue.length ++ BitVec.ofBool (s.port p).unit.overrun ++ s.exchange.code ++
    BitVec.ofBool (s.token == some p) ++ h.cause.code ++ BitVec.ofBool h.warn ++ h.state.code

/-- HEALTH SCORE; the rejoin count reads 0 in every state but REJOINING (R177). -/
def State.scoreWord (s : State) (p : Port) : Word :=
  let h := s.healthOf p
  0#4 ++ (if h.state = .rejoining then BitVec.ofNat 4 h.rejoinCount else 0#4) ++ BitVec.ofNat 8 h.score

/-- VIEW HEADER (R63, R64, R178). -/
def State.viewHeader (s : State) (p : Port) : Word :=
  match s.hold p with
  | none => 0#16
  | some h =>
    let r := s.slot h.slot
    0#2 ++ BitVec.ofBool r.value.echo ++ BitVec.ofBool (s.suspect h.slot) ++ BitVec.ofBool r.orphaned ++
      BitVec.ofBool r.stale ++ r.value.length ++ BitVec.ofBool (r.config.kind == .event) ++ r.state.code ++ h.viewState.code

/-- A field of the held slot's value, 0 while the port holds nothing (R63, R64). -/
def State.viewed (s : State) (p : Port) (f : SlotValue → Word) : Word :=
  match s.hold p with
  | none => 0#16
  | some h => f (s.slot h.slot).value

/-- NOTE TAKE: the reason and the slot of the note taken, or reason NONE and slot 0 (R79, R178). -/
def noteTakeWord : Option Note → Word
  | none => 0#16
  | some n => n.reason.code ++ 0#5 ++ slotBits n.slot

/-- NOTE IDENT+FLAGS of the note latch (R81, R178). -/
def noteIdentWord : Option Note → Word
  | none => 0#16
  | some n => 0#2 ++ BitVec.ofBool n.coalesced ++ BitVec.ofBool n.reply ++ n.identifier

/-- A filter's identifier word (R178). -/
def Filter.identWord (f : Filter) : Word := BitVec.ofBool f.enabled ++ 0#3 ++ f.identifier

/-- A filter's mask word (R178). -/
def Filter.maskWord (f : Filter) : Word := 0#4 ++ f.mask

/-- ATTENTION ENABLE (R178). -/
def PortUnit.enableWord (u : PortUnit) : Word := 0#14 ++ BitVec.ofBool u.doneEnable ++ BitVec.ofBool u.notesEnable

/-- A word of an INSPECT record (R179). -/
def Inspection.word (r : Inspection) : Nat → Word
  | 0 => 0#1 ++ r.source.code ++ 0#1 ++ BitVec.ofBool r.passed ++ BitVec.ofBool r.snapshot ++
      BitVec.ofNat 4 r.queueCount ++ r.position ++ 1#2
  | 1 => 0#4 ++ r.length ++ 0#1 ++ slotBits r.slot
  | 2 => r.word0
  | 3 => r.stamp.extractLsb' 0 16
  | 4 => r.stamp.extractLsb' 16 16
  | 5 => BitVec.ofNat 16 r.ripeCount
  | _ => 0#16

/-- A word of a CAPTURE record; the empty entry has kind NONE and every other entry field 0 (R166, R179). -/
def CaptureReading.word (r : CaptureReading) (i : Nat) : Word :=
  match i, r.entry with
  | 0, some e => e.action.code ++ BitVec.ofBool e.detail ++ e.kind.code ++ BitVec.ofBool r.armed ++
      BitVec.ofNat 4 r.present ++ r.index ++ 2#2
  | 0, none => 0#2 ++ 0#1 ++ 0#3 ++ BitVec.ofBool r.armed ++ BitVec.ofNat 4 r.present ++ r.index ++ 2#2
  | 1, some e => 0#5 ++ e.source.code ++ 0#1 ++ slotBits e.slot
  | 2, some e => 0#4 ++ e.identifier
  | 3, some e => e.sequence
  | 4, some e => e.stamp.extractLsb' 0 16
  | 5, some e => e.stamp.extractLsb' 16 16
  | 6, some e => e.matchNumber
  | 7, _ => r.matchCount
  | _, _ => 0#16

/-- A word of the maintenance window (R156, R179). -/
def Maintenance.word : Maintenance → Nat → Word
  | .none, _ => 0#16
  | .inspect r, i => r.word i
  | .capture r, i => r.word i

/-- What port `p` reads at an offset of its window, as the state stands before the read's side effect (R168, R169, R170). -/
def State.windowRead (s : State) (p : Port) (off : BitVec 6) : Word :=
  let u := s.port p
  let n := off.toNat
  if n = 0x00 then 0#16
  else if n = 0x01 then u.arg0
  else if n = 0x02 then u.arg1
  else if n = 0x03 then u.arg2
  else if n = 0x04 then u.unit.resultWord
  else if n = 0x05 then s.statusWord p
  else if n = 0x06 then s.scoreWord p
  else if n = 0x07 then s.time.extractLsb' 0 16
  else if n = 0x08 then u.timeLatch
  else if n = 0x09 then u.composeLength
  else if n ≤ 0x11 then u.composeData.get (eighth (n - 0x0A))
  else if n = 0x12 then s.viewHeader p
  else if n = 0x13 then (s.hold p).elim 0#16 fun h => h.identifier.setWidth 16
  else if n = 0x14 then s.viewed p fun v => v.sequence
  else if n = 0x15 then s.viewed p fun v => v.stamp.extractLsb' 0 16
  else if n = 0x16 then s.viewed p fun v => v.stamp.extractLsb' 16 16
  else if n ≤ 0x1E then s.viewed p fun v => v.data.get (eighth (n - 0x17))
  else if n = 0x1F then (s.hold p).elim 0#16 fun h => BitVec.ofNat 16 h.slot.val
  else if n = 0x20 then noteTakeWord (s.noteUnit p).queue.head?
  else if n = 0x21 then noteIdentWord u.latch
  else if n = 0x22 then u.latch.elim 0#16 fun m => m.sequence
  else if n = 0x23 then u.latch.elim 0#16 fun m => m.stamp
  else if n = 0x24 then BitVec.ofNat 16 (s.noteUnit p).queue.length
  else if n = 0x25 then u.enableWord
  else if n ≤ 0x27 then 0#16
  else if n ≤ 0x37 then
    let f := (s.noteUnit p).filters.get (eighth ((n - 0x28) / 2))
    if n % 2 = 0 then f.identWord else f.maskWord
  else u.maintenance.word (n - 0x38)

/-- What the Port Unit drives on port `p`'s data lines in a read cycle; none where it takes no cycle, and the lines stay in high
impedance (R168, R181, R182). -/
def State.dataDriven (s : State) (p : Port) (off : BitVec 6) : Option Word :=
  if s.takesCycles p then some (s.windowRead p off) else none

/-! ### Writes of stored words -/

/-- A write to ATTENTION ENABLE: bit 0 NOTES, bit 1 DONE; the other bits are ignored (R83, R169, R178). -/
def State.writeEnables (s : State) (p : Port) (w : Word) : State :=
  s.modPort p fun u => { u with notesEnable := w.getLsbD 0, doneEnable := w.getLsbD 1 }

/-- A write to a filter word (R68, R169, R178). -/
def State.writeFilter (s : State) (p : Port) (n : Nat) (w : Word) : State :=
  s.modNotes p fun m =>
    let i := eighth ((n - 0x28) / 2)
    let f := m.filters.get i
    let f' := if n % 2 = 0 then { f with identifier := w.extractLsb' 0 12, enabled := w.getLsbD 15 }
      else { f with mask := w.extractLsb' 0 12 }
    { m with filters := m.filters.set i f' }

/-- A write to a word of the window other than COMMAND: a stored word is stored, and a write to any other word is
ignored (R169). -/
def State.writeStored (s : State) (p : Port) (off : BitVec 6) (w : Word) : State :=
  let n := off.toNat
  if n = 0x01 then s.modPort p fun u => { u with arg0 := w }
  else if n = 0x02 then s.modPort p fun u => { u with arg1 := w }
  else if n = 0x03 then s.modPort p fun u => { u with arg2 := w }
  else if n = 0x09 then s.modPort p fun u => { u with composeLength := w }
  else if 0x0A ≤ n && n ≤ 0x11 then
    s.modPort p fun u => { u with composeData := u.composeData.set (eighth (n - 0x0A)) w }
  else if n = 0x25 then s.writeEnables p w
  else if 0x28 ≤ n && n ≤ 0x37 then s.writeFilter p n w
  else s

end Sys2Proof.Machine
end

