-- ==== Sys2Proof/Machine/Control.lean ====
section
/-! DEFINITION. The Control Unit's transitions among RUNNING, FREEZING, FROZEN and STEPPING (R149 to R151, R155, R164), and
the Watch Unit's comparison and recording of an act (R162 to R165). -/

namespace Sys2Proof.Machine

open Sys2Proof

/-! ### Freezing -/

/-- The values of the due list go back to their slots as pending values, and each becomes ripe (R45). -/
def State.dueToRipe (s : State) : State :=
  s.due.foldl (fun t o => (t.modSlot o.slot fun r => { r with parked := some o }).ripen o.slot) { s with due := [] }

/-- The exchange becomes FROZEN: the step or the drain, if there is one, ends and the freeze mark is cleared (R150, R153,
R155), the due list becomes ripe (R45), and every waiting FREEZE, STEP and RESUME completes with DONE (R150, R151). -/
def State.becomeFrozen (s : State) : State :=
  let t := { s with exchange := .frozen, freezeMark := false, task := none }.dueToRipe
  ((t.completeAll .freeze).completeAll .step).completeAll .resume

/-- A freeze is called for, by a FREEZE or by the watch, and the Control Unit takes it by the exchange state (R150, R164):
a landing in flight makes RUNNING FREEZING, and RUNNING without one FROZEN; STEPPING takes the freeze mark, and a drain
with no landing in flight ends at once (R155). -/
def State.callFreeze (s : State) : State :=
  match s.exchange with
  | .running => if s.flight.isSome then { s with exchange := .freezing } else s.becomeFrozen
  | .stepping =>
    let t := { s with freezeMark := true }
    match s.task with
    | some (.drain _) => if s.flight.isSome then t else t.becomeFrozen
    | some (.step _) | none => t
  | .freezing | .frozen | .restarting => s

/-- The drain goes on, with no landing in flight: to the next slot of the ripe list, or, with the list empty or a freeze
called for, to its end (R155). -/
def State.drainNext (s : State) : State :=
  if s.freezeMark then s.becomeFrozen
  else
    match s.ripe with
    | k :: _ => { s with task := some (.drain k) }
    | [] => { s with exchange := .running, task := none }.completeAll .resume

/-- The Control Unit takes the end of a landing, or of a step's parking (R39, R149, R151, R153, R155). With the restart
mark set the restart begins in place of any of these (R144). A landing that has begun since has an end of its own, which alone
makes a FREEZING exchange FROZEN (R151). -/
def State.landingEnded (s : State) : State :=
  if s.restartMark || s.flight.isSome then s
  else
    match s.exchange with
    | .freezing => s.becomeFrozen
    | .stepping =>
      match s.task with
      | some (.drain _) => s.drainNext
      | some (.step _) | none => s.becomeFrozen
    | .running | .frozen | .restarting => s

/-! ### The watch -/

/-- Is the kind of act among the enabled kinds (R162)? -/
def Watch.watches (w : Watch) : ActKind → Bool
  | .landing => w.onLanding
  | .view => w.onView
  | .request => w.onRequest
  | .config => w.onConfig

/-- Does the act match the watch (R162)? -/
def Watch.hits (w : Watch) (kind : ActKind) (k : SlotIx) (src : Source) : Bool :=
  w.armed && w.watches kind && (w.slot == none || w.slot == some k) && (w.source == none || w.source == some src)

/-- The match count raised by one; at 65535 it stays (R163). -/
def Watch.nextCount (w : Watch) : Word := if w.matchCount = 0xFFFF#16 then w.matchCount else w.matchCount + 1#16

/-- The last `n` members of a list. -/
def lastOf {α : Type} (n : Nat) (l : List α) : List α := l.drop (l.length - n)

/-- The action applied to a match: a VIEW, REQUEST or CONFIG match is already done, so FREEZE_BEFORE is applied to it as
FREEZE_AFTER (R164, R165). -/
def WatchAction.applied (a : WatchAction) : ActKind → WatchAction
  | .landing => a
  | .view | .request | .config =>
    match a with
    | .record => .record
    | .freezeAfter | .freezeBefore => .freezeAfter

/-- The Watch Unit records a match: the count rises, and a capture entry is placed at the tail of the list, from which
the oldest goes when it is full (R163). -/
def State.recordMatch (s : State) (kind : ActKind) (detail : Bool) (k : SlotIx) (src : Source) : State :=
  let w := s.watch
  let e : Capture :=
    { kind := kind, detail := detail, slot := k, source := src, identifier := (s.slot k).config.identifier,
      sequence := (s.slot k).value.sequence, stamp := s.time, matchNumber := w.nextCount,
      action := w.action.applied kind }
  { s with watch := { w with matchCount := w.nextCount, captures := lastOf Config.captureLimit (w.captures ++ [e]) } }

/-- A completed VIEW, REQUEST or configuration act is offered to the Watch Unit (R162 to R164). -/
def State.offerAct (s : State) (kind : ActKind) (detail : Bool) (k : SlotIx) (src : Source) : State :=
  if s.watch.hits kind k src then
    let t := s.recordMatch kind detail k src
    match s.watch.action with
    | .record => t
    | .freezeAfter | .freezeBefore => t.callFreeze
  else s

/-- The Watch Unit's answer to a landing offered to it (R36, R165). -/
inductive Answer where
  | proceed | freezeAfter | freezeBefore
deriving DecidableEq, Repr

/-- The answer to the offer of the landing of `o`: a value with the watch-passed mark is not offered (R36, R165). -/
def State.answerFor (s : State) (o : Offer) : Answer :=
  if o.passed || !s.watch.hits .landing o.slot o.source then .proceed
  else
    match s.watch.action with
    | .record => .proceed
    | .freezeAfter => .freezeAfter
    | .freezeBefore => .freezeBefore

/-- The recording of the offer of the landing of `o`, where it is offered and matches (R36, R163). `detail` is set for a
deferred, due or ripe value. -/
def State.recordLanding (s : State) (o : Offer) (detail : Bool) : State :=
  if o.passed || !s.watch.hits .landing o.slot o.source then s else s.recordMatch .landing detail o.slot o.source

end Sys2Proof.Machine
end

