-- ==== Sys2Proof/Machine/Notes.lean ====
section
/-! DEFINITION. The Notification Unit: filters, subscriber sets, the append of a note with coalescing and overflow, the
sealing of notes (R68 to R77), and the flush of a port at its detachment and reset (R85, R87). -/

namespace Sys2Proof.Machine

open Sys2Proof

/-- Does the filter match the identifier: enabled, and equal in every bit where the mask holds a 1 (R68)? -/
def Filter.matches (f : Filter) (i : Ident) : Bool := f.enabled && ((f.identifier ^^^ i) &&& f.mask == 0#12)

/-- Does one of the port's filters match the identifier (R68)? -/
def NoteUnit.matches (m : NoteUnit) (i : Ident) : Bool := m.filters.rows.any fun f => f.matches i

/-- Is port `p` a subscriber of slot `k`: not its owner, ACTIVE or DEGRADED, DELIVERING, and with a matching filter (R70)? -/
def State.subscribes (s : State) (k : SlotIx) (p : Port) : Bool :=
  p != (s.slot k).config.owner && s.inside p && (s.noteUnit p).delivery == .delivering &&
    (s.noteUnit p).matches (s.slot k).config.identifier

/-- The subscriber set of slot `k` (R70). -/
def State.subscribers (s : State) (k : SlotIx) : PortSet := PerPort.ofFn (s.subscribes k)

/-- A note about slot `k` as it is appended: the slot's identifier, sequence number 0, every flag clear, and the low half
of the time base (R73, R74). -/
def State.noteOf (s : State) (r : Reason) (k : SlotIx) : Note :=
  { reason := r, slot := k, identifier := (s.slot k).config.identifier, sequence := 0#16, reply := false,
    coalesced := false, isSealed := false, stamp := s.time.extractLsb' 0 16 }

/-- Does a new note of this reason coalesce at all: STALE, RETIRED and ORPHANED always, NEW_VALUE on a STATE slot (R76)? -/
def coalesces (r : Reason) (kind : Kind) : Bool :=
  match r with
  | .newValue => kind == .state
  | .stale | .retired | .orphaned => true
  | .request | .requestTimeout | .holdExpired | .dropped | .lost => false

/-- Does the new note `n` coalesce with the queued note `q`: the same reason, slot and identifier, and `q` not sealed (R76)? -/
def sameMatter (n q : Note) : Bool :=
  q.reason == n.reason && q.slot == n.slot && q.identifier == n.identifier && !q.isSealed

/-- The queued note with the new one folded into it (R76). -/
def Note.fold (q n : Note) : Note :=
  match n.reason with
  | .newValue => { q with sequence := n.sequence, coalesced := true, reply := q.reply || n.reply }
  | .stale | .request | .requestTimeout | .holdExpired | .dropped | .retired | .orphaned | .lost =>
    { q with coalesced := true }

/-- The queue with the new note folded into the first note it coalesces with. -/
def foldInto (n : Note) : List Note → List Note
  | [] => []
  | q :: qs => if sameMatter n q then q.fold n :: qs else q :: foldInto n qs

/-- The LOST note that a discarded note leaves (R77). -/
def Note.lostFor (n : Note) (stamp : Word) : Note :=
  { reason := .lost, slot := n.slot, identifier := n.identifier, sequence := 0#16, reply := false, coalesced := false,
    isSealed := false, stamp := stamp }

/-- What the append of a note to a queue comes to (R75). -/
inductive Appended where
  /-- Discarded without trace: the port is CLOSED (test 1), or a LOST note is present (test 3). -/
  | discarded
  /-- Folded into a queued note (test 2). -/
  | folded
  /-- Overflow: a LOST note takes its place (test 4). -/
  | overflowed
  /-- Placed at the tail (test 5). -/
  | placed
deriving DecidableEq, Repr

/-- The tests of R75, in order; `kind` is the kind of the note's slot. -/
def appendTest (m : NoteUnit) (kind : Kind) (n : Note) : Appended :=
  if m.delivery = .closed then .discarded
  else if coalesces n.reason kind && m.queue.any (sameMatter n) then .folded
  else if lostPending m.queue then .discarded
  else if Config.ordinaryLimit ≤ m.queue.length then .overflowed
  else .placed

/-- The append of note `n` to port `p`'s queue (R75 to R77). -/
def State.appendNote (s : State) (p : Port) (n : Note) : State :=
  match appendTest (s.noteUnit p) (s.slot n.slot).config.kind n with
  | .discarded => s
  | .folded => s.modNotes p fun m => { m with queue := foldInto n m.queue }
  | .overflowed =>
    (s.modNotes p fun m => { m with queue := m.queue ++ [n.lostFor (s.time.extractLsb' 0 16)] }).noteReport p
      (.penalty Config.lostPenalty)
  | .placed => s.modNotes p fun m => { m with queue := m.queue ++ [n] }

/-- One note to each port of a set; the queues are independent of one another (R71, R75). -/
def State.appendEach (s : State) (ps : PortSet) (n : Port → Note) : State :=
  Port.all.foldl (fun t p => if ps.has p then t.appendNote p (n p) else t) s

/-- A note of reason `r` about slot `k` to each port of a set. -/
def State.tell (s : State) (ps : PortSet) (r : Reason) (k : SlotIx) : State :=
  s.appendEach ps fun _ => s.noteOf r k

/-- A DROPPED note about slot `k` to the publisher, where it is a port that is ACTIVE or DEGRADED (R14, R49). -/
def State.tellDropped (s : State) (src : Source) (k : SlotIx) : State :=
  match src with
  | .port p => if s.inside p then s.appendNote p (s.noteOf .dropped k) else s
  | .exchange => s

/-- Every note in every queue that names slot `k` is sealed (R76). -/
def State.sealNotes (s : State) (k : SlotIx) : State :=
  { s with notes := PerPort.ofFn fun p =>
      let m := s.noteUnit p
      { m with queue := m.queue.map fun n => if n.slot = k then { n with isSealed := true } else n } }

/-- `p` out of the unread set and the missed set of a slot record (R72). -/
def Slot.seenBy (p : Port) (r : Slot) : Slot := { r with unread := r.unread.erase p, missed := r.missed.erase p }

/-- Port `p`'s queue is emptied without notes, and `p` leaves every unread and missed set (R85, R87). -/
def State.flushNotes (s : State) (p : Port) : State :=
  (s.modNotes p fun m => { m with queue := [] }).mapSlots (Slot.seenBy p)

/-- The Notification Unit's part of a port reset (R87): the queue emptied, the filters cleared and disabled, `p` out of
the unread and missed sets, the delivery state kept. -/
def State.resetNotes (s : State) (p : Port) : State :=
  (s.flushNotes p).modNotes p fun m => { m with filters := Table.fill 8 Filter.cleared }

end Sys2Proof.Machine
end

