-- ==== Sys2Proof/Machine/Commit.lean ====
section
/-! DEFINITION. The Commit Unit: the landing of a value, parking and superseding, deferred landings, the taking of the next
item, withdrawal and dropping (R31 to R51), and the completion of a retirement, which the end of a landing and of a hold
test (R16). -/

namespace Sys2Proof.Machine

open Sys2Proof

/-! ### Landing (R37, R38) -/

/-- The next sequence number of a slot: 65535 is followed by 1 (R18). -/
def nextSequence (n : Word) : Word := if n = 0xFFFF#16 then 1#16 else n + 1#16

/-- The data words of a value of length `n`: words beyond it are 0 (R3, R30, R37). -/
def trimData (n : BitVec 4) (d : Table 8 Word) : Table 8 Word :=
  ⟨d.rows.zipIdx.map fun x => if x.2 < n.toNat then x.1 else 0#16, by
    rw [List.length_map, List.length_zipIdx, d.size]⟩

/-- What a landing of `o` writes into its slot record (R37); an echo rewrites the slot's own length and data under a new
sequence number (R38). -/
def Slot.land (o : Offer) (r : Slot) : Slot :=
  { r with
    state := match r.state with
      | .opened => .live
      | .unused => .unused
      | .live => .live
      | .retiring => .retiring
    value :=
      { length := if o.isEcho then r.value.length else o.length
        data := if o.isEcho then r.value.data else trimData o.length o.data
        sequence := nextSequence r.value.sequence
        stamp := o.stamp
        echo := o.isEcho } }

/-- A landing begins: the value is written, and it is the in-flight landing (R37). The caller has taken it off the queue,
the due list or the slot. -/
def State.beginLanding (s : State) (o : Offer) : State :=
  { s.modSlot o.slot (Slot.land o) with
    flight := some { offer := o, served := none, notified := false, timed := false } }

/-- A value that is about to land is offered to the watch (R36, R165). It begins to land from the state `gone`, in which it
has left its place; a freeze after makes a RUNNING exchange FREEZING, or calls for a freeze in STEPPING. Stopped before its
landing it stays, marked, in the state `stays`, and the exchange becomes FROZEN. -/
def State.tryLanding (s : State) (o : Offer) (detail : Bool) (gone stays : State → State) : State :=
  let t := s.recordLanding o detail
  match s.answerFor o with
  | .proceed => (gone t).beginLanding o
  | .freezeAfter => ((gone t).beginLanding o).callFreeze
  | .freezeBefore => (stays t).becomeFrozen

/-- The value with its watch-passed mark set (R36). -/
def Offer.marked (o : Offer) : Offer := { o with passed := true }

/-! ### Deferred landings (R43 to R45) -/

/-- Slot `k`'s pending value replaced. -/
def State.setParked (s : State) (k : SlotIx) (o : Option Offer) : State := s.modSlot k fun r => { r with parked := o }

/-- The pending value `o` of slot `k` leaves the slot for the due list (R43, R44). -/
def State.toDue (s : State) (k : SlotIx) (o : Offer) : State :=
  { s.setParked k none with due := insertBy (fun x => x.order) o s.due }

/-- The Commit Unit acts on the pending value of slot `k`, whose hold set has become empty (R43). -/
def State.commitOnEmpty (s : State) (k : SlotIx) : State :=
  match (s.slot k).parked with
  | none => s
  | some o =>
    match s.exchange with
    | .running =>
      if s.flight.isSome || s.restartMark then s.toDue k o
      else s.tryLanding o true (fun t => t.setParked k none) fun t => (t.setParked k (some o.marked)).ripen k
    | .freezing => s.toDue k o
    | .frozen | .stepping => s.ripen k
    | .restarting => s

/-! ### Parking (R41, R42) -/

/-- The head entry `o` is parked on its held slot; a value it supersedes leaves every current subscriber in the missed
set (R42). -/
def State.park (s : State) (o : Offer) : State :=
  s.modSlot o.slot fun r =>
    { r with
      missed := if r.parked.isSome then r.missed.union (s.subscribers o.slot) else r.missed
      parked := some o }

/-! ### Taking the next value (R34 to R36, R153, R155) -/

/-- The head entry is taken: it lands with its slot unheld, and is parked with its slot held (R35). -/
def State.takeHead (s : State) (o : Offer) (rest : List Offer) : State :=
  if (s.holdSet o.slot).isEmpty then
    s.tryLanding o false (fun t => { t with queue := rest }) fun t => { t with queue := o.marked :: rest }
  else { s with queue := rest }.park o

/-- The earliest due value is taken (R44). Stopped by the watch it stands first on the due list, marked, as that list goes
back to the slots (R36, R45). -/
def State.takeDue (s : State) (o : Offer) (rest : List Offer) : State :=
  s.tryLanding o true (fun t => { t with due := rest }) fun t => { t with due := o.marked :: rest }

/-- The pending value of slot `k` on the ripe list is taken (R153, R155). -/
def State.takeRipe (s : State) (k : SlotIx) : State :=
  match (s.slot k).parked with
  | none => s.unripen k
  | some o => s.tryLanding o true (fun t => (t.setParked k none).unripen k) fun t => t.setParked k (some o.marked)

/-- The drain takes slot `k`, to which it was directed, off the ripe list, also where a slot ahead of it has joined the list since
(log entry 23); where its value is gone, the drain goes on at once to the next slot on the list, or ends (R155). -/
def State.takeDrain (s : State) (k : SlotIx) : State :=
  if k ∈ s.ripe then s.takeRipe k
  else
    let t := s.drainNext
    match t.task with
    | some (.drain j) => t.takeRipe j
    | some (.step _) | none => t

/-- The step takes its item. It ends at once when the value is parked, or when the item is gone (R153). A head entry to which the step
was directed lands on its unheld slot also where a pending value of that slot, accepted before it, has become ripe since, which is the
model's choice between R153 and the last sentence of R35 (log entry 26). -/
def State.takeStep (s : State) (i : Item) : State :=
  match i with
  | .ripe k => if k ∈ s.ripe then s.takeRipe k else s.becomeFrozen
  | .head n =>
    match s.queue with
    | o :: rest =>
      if o.order = n then
        if (s.holdSet o.slot).isEmpty then s.takeHead o rest else (s.takeHead o rest).becomeFrozen
      else s.becomeFrozen
    | [] => s.becomeFrozen

/-- The Commit Unit takes the next item, where it may take one (R34). -/
def State.takeNext (s : State) : State :=
  if s.flight.isSome || s.restartMark then s
  else
    match s.exchange with
    | .running =>
      match s.due with
      | o :: rest => s.takeDue o rest
      | [] =>
        match s.queue with
        | o :: rest => s.takeHead o rest
        | [] => s
    | .stepping =>
      match s.task with
      | some (.step i) => s.takeStep i
      | some (.drain k) => s.takeDrain k
      | none => s
    | .freezing | .frozen | .restarting => s

/-! ### Completion of a retirement (R16) -/

/-- VIEWs that wait for slot `k` are left to be answered RETIRING: the slot is UNUSED (R56). -/
def State.viewsGone (s : State) (k : SlotIx) : State :=
  Port.all.foldl (fun t p => if t.phaseOf p = some (.behindLanding k) then t.setPhase p .slotGone else t) s

/-- Slot `k`'s retirement completes: RETIRED notes to the subscribers, the sealing of the notes that name the slot, and the
record cleared (R16, R76). -/
def State.completeRetirement (s : State) (k : SlotIx) : State :=
  ((((s.tell (s.subscribers k) .retired k).sealNotes k).modSlot k fun _ => Slot.cleared).viewsGone k)

/-- Would the Slot Table's test find slot `k`'s retirement complete: RETIRING, no holder, no landing in progress (R16)? -/
def State.retirementDue (s : State) (k : SlotIx) : Bool :=
  (s.slot k).state == .retiring && (s.holdSet k).isEmpty && !s.landingMark k

/-- The Slot Table tests slot `k` for the completion of its retirement (R16). -/
def State.testRetirement (s : State) (k : SlotIx) : State :=
  if s.retirementDue k then s.completeRetirement k else s

/-! ### Withdrawal (R47, R48) -/

/-- Every entry in the Publication Queue whose source is `p` is withdrawn without notes (R47). -/
def State.withdraw (s : State) (p : Port) : State :=
  { s with queue := s.queue.filter fun o => o.source != .port p }

/-- Is the pending value of the record one that `p` published? -/
def Slot.parkedBy (p : Port) (r : Slot) : Bool :=
  match r.parked with
  | some o => o.source == .port p
  | none => false

/-- Step 3 of the detachment of `p`: its entries withdrawn, and its pending, due and ripe values discarded, without notes
(R48, R125). -/
def State.discardPublications (s : State) (p : Port) : State :=
  let t := s.withdraw p
  { t with
    due := t.due.filter fun o => o.source != .port p
    ripe := t.ripe.filter fun k => !(s.slot k).parkedBy p
    slots := t.slots.map fun r => if r.parkedBy p then { r with parked := none } else r }

/-- Is a value for slot `k`, published by its owner with the requester snapshot flag set, present in the queue, in flight,
pending, due or ripe (R33)? -/
def State.answerPresent (s : State) (k : SlotIx) : Bool :=
  let answers := fun (o : Offer) => o.slot == k && o.snapshot && o.source == .port (s.slot k).config.owner
  s.queue.any answers || s.due.any answers || (s.slot k).parked.any answers || (s.flight.any fun l => answers l.offer)

end Sys2Proof.Machine
end

