-- ==== Sys2Proof/Machine/Views.lean ====
section
/-! DEFINITION. The View Unit: acquiring, refreshing and ending holds (R52 to R62), and the slot check that PUBLISH, VIEW and
REQUEST share (R8). -/

namespace Sys2Proof.Machine

open Sys2Proof

/-- The slot check of PUBLISH, VIEW and REQUEST (R8): the slot named, or the refusal. -/
def State.checkSlot (s : State) (n : Byte) : Except Result SlotIx :=
  match slotOf n with
  | none => .error .noSlot
  | some k =>
    match (s.slot k).state with
    | .unused => .error .noSlot
    | .retiring => .error .retiring
    | .opened | .live => .ok k

/-! ### Ending a hold -/

/-- The report of an emptied hold set: the Commit Unit acts on the pending value and the Slot Table tests the slot (R58).
While other ports hold the slot there is no report. -/
def State.holdLeft (s : State) (k : SlotIx) : State :=
  if (s.holdSet k).isEmpty then (s.commitOnEmpty k).testRetirement k else s

/-- Port `p`'s hold ends, if it has one, with every consequence of a last release (R58). -/
def State.endHold (s : State) (p : Port) : State :=
  match s.hold p with
  | none => s
  | some h => (s.setHold p none).holdLeft h.slot

/-- Does the end of port `p`'s hold complete a retirement (R16)? -/
def State.endRetires (s : State) (p : Port) : Bool :=
  match s.hold p with
  | none => false
  | some h => (s.setHold p none).retirementDue h.slot

/-! ### Acquiring a hold -/

/-- The view state of a slot record as seen by `p` (R19). -/
def Slot.viewStateFor (r : Slot) (p : Port) : ViewState :=
  if r.state = .opened then .none
  else if r.missed.has p then .missed
  else if r.unread.has p then .new
  else .seen

/-- The hold that a VIEW of slot `k` by `p` gives: expiry at the time base plus the hold timeout, and the view state and
identifier captured (R54, R55). -/
def State.newHold (s : State) (p : Port) (k : SlotIx) : Hold :=
  { slot := k
    expiry := s.time + s.holdTimeout.setWidth 32 * Config.holdUnit
    viewState := (s.slot k).viewStateFor p
    identifier := (s.slot k).config.identifier }

/-- A value of slot `k` on the due list goes back to the slot as its pending value (R44). -/
def State.reclaimDue (s : State) (k : SlotIx) : State :=
  match s.due.find? fun o => o.slot == k with
  | some o => { s.setParked k (some o) with due := s.due.filter fun o => o.slot != k }
  | none => s

/-- Port `p` captures the view of slot `k` into its hold and view record, and leaves the slot's unread and missed sets
(steps 3 and 4 of R54; R55). -/
def State.capture (s : State) (p : Port) (k : SlotIx) : State :=
  (s.setHold p (some (s.newHold p k))).modSlot k (Slot.seenBy p)

/-- A VIEW of slot `k` is granted to `p`: steps 2 to 5 of R54. A due value goes back to the slot, and a ripe one leaves the
ripe list (R44, R45). -/
def State.grantView (s : State) (p : Port) (k : SlotIx) : State :=
  let t := (((s.endHold p).capture p k).reclaimDue k).unripen k
  (t.post p .done).offerAct .view false k (.port p)

/-- A VIEW of the slot that `p` already holds refreshes the hold (R55). -/
def State.refreshView (s : State) (p : Port) (k : SlotIx) : State :=
  ((s.capture p k).post p .done).offerAct .view true k (.port p)

/-- The View Unit takes VIEW (R54 to R56). -/
def takeView (p : Port) (n : Byte) (s : State) : State :=
  match s.checkSlot n with
  | .error r => s.refuse p r
  | .ok k =>
    if s.holding p k then s.refreshView p k
    else if s.landingMark k then s.setPhase p (.behindLanding k)
    else s.grantView p k

/-- The waiting VIEW of `p` is granted once no landing is in progress on its slot, or answered RETIRING where the slot has
become UNUSED; during a restart it waits on (R56). -/
def State.grantWaiting (s : State) (p : Port) : State :=
  match s.phaseOf p with
  | some (.behindLanding k) =>
    if s.landingMark k || s.exchange == .restarting then s else s.grantView p k
  | some .slotGone => if s.exchange = .restarting then s else s.refuse p .retiring
  | some .taken | some .afterRestart | some (.expelling _ _) | none => s

/-- The View Unit takes RELEASE (R58). -/
def takeRelease (p : Port) (s : State) : State :=
  match s.hold p with
  | none => s.refuse p .notHeld
  | some _ => (s.endHold p).post p .done

/-- Port `p`'s hold expires, once the time base has reached its expiry time and while the time base runs (R61): the hold
ends, a HOLD_EXPIRED note is appended to `p`'s own queue, and a penalty of 8 is reported. The note carries the slot's identifier
at the moment of the append (R74), which is that of a cleared record where step 1 has completed a retirement (log entry 13). -/
def expireHold (p : Port) (s : State) : State :=
  match s.hold p with
  | none => s
  | some h =>
    if s.timeRuns && s.reached h.expiry then
      let t := s.endHold p
      (t.appendNote p (t.noteOf .holdExpired h.slot)).report p (.penalty Config.holdPenalty)
    else s

/-- The Port Unit's and the Notification Unit's part of a read of NOTE TAKE: the head note goes to the latch, and the read
returns its reason and slot; a note taken earns a credit. An empty queue gives the empty reading (R79). -/
def State.popNote (s : State) (p : Port) : State :=
  match (s.noteUnit p).queue with
  | [] => s.modPort p fun u => { u with latch := none, lastRead := some (noteTakeWord none) }
  | n :: rest =>
    ((s.modPort p fun u => { u with latch := some n, lastRead := some (noteTakeWord (some n)) }).modNotes p
      fun m => { m with queue := rest }).noteReport p .credit

/-- A read of NOTE TAKE: the pop (R79) and the end of the hold (R59), which stand in no order to each other. The order is
seen only where the end of the hold completes a retirement, whose notes reach the queues (R16, R80); there it is free
(log entry 3). -/
def takeNote (p : Port) (s : State) : State :=
  if s.endRetires p then
    let c := s.pick 2
    if c.1 = 0 then (c.2.popNote p).endHold p else (c.2.endHold p).popNote p
  else (s.popNote p).endHold p

end Sys2Proof.Machine
end

