-- ==== Sys2Proof/Machine/Requests.lean ====
section
/-! DEFINITION. The Commit Unit's acceptance of PUBLISH (R28 to R30), the Request Unit (R89 to R105), and the Time Unit's timers
(R110 to R113). -/

namespace Sys2Proof.Machine

open Sys2Proof

/-! ### PUBLISH -/

/-- How many entries of the Publication Queue come from `p` (R32). -/
def State.entriesOf (s : State) (p : Port) : Nat := (s.queue.filter fun o => o.source == .port p).length

/-- The checks of PUBLISH, in order (R29). -/
def State.checkPublish (s : State) (p : Port) (n : Byte) : Except Result SlotIx :=
  match s.checkSlot n with
  | .error r => .error r
  | .ok k =>
    let c := (s.slot k).config
    let len := (s.port p).composeLength
    if c.owner ≠ p then .error .notOwner
    else if c.maxLength.toNat < len.toNat ∨ (len = 0#16 ∧ c.kind = .state) then .error .badLength
    else if Config.portLimit ≤ s.entriesOf p then .error .portLimit
    else if Config.queueLimit ≤ s.queue.length then .error .queueFull
    else .ok k

/-- The entry that an accepted PUBLISH appends (R30, R33). -/
def State.newEntry (s : State) (p : Port) (k : SlotIx) : Offer :=
  let u := s.port p
  { source := .port p, slot := k, length := u.composeLength.setWidth 4,
    data := trimData (u.composeLength.setWidth 4) u.composeData, stamp := s.time,
    snapshot := !(s.slot k).requesters.isEmpty, passed := false, order := s.nextOrder }

/-- An entry is appended at the tail of the Publication Queue (R30, R31). -/
def State.appendEntry (s : State) (o : Offer) : State :=
  { s with queue := s.queue ++ [o], nextOrder := s.nextOrder + 1 }

/-- The Commit Unit takes PUBLISH (R28 to R30). -/
def takePublish (p : Port) (n : Byte) (s : State) : State :=
  match s.checkPublish p n with
  | .error r => s.refuse p r
  | .ok k => ((s.appendEntry (s.newEntry p k)).report p .credit).post p .done

/-! ### REQUEST -/

/-- The checks of REQUEST, in order (R91). Check 8 applies only where the request would create an echo. -/
def State.checkRequest (s : State) (p : Port) (n : Byte) : Except Result SlotIx :=
  if (s.healthOf p).state = .degraded then .error .degraded
  else
    match s.checkSlot n with
    | .error r => .error r
    | .ok k =>
      let r := s.slot k
      if r.config.owner = p then .error .ownSlot
      else if r.config.requestDeadline = 0#8 then .error .notRequestable
      else if r.config.answer = .ownerAnswers ∧ (r.orphaned ∨ s.lostOwners.has r.config.owner) then .error .orphaned
      else if r.config.answer = .autoAnswer ∧ r.state = .opened then .error .noValue
      else if r.config.answer = .autoAnswer ∧ r.requesters.isEmpty ∧ Config.queueLimit ≤ s.queue.length then
        .error .queueFull
      else .ok k

/-- The echo entry of a request on slot `k` (R94). -/
def State.newEcho (s : State) (k : SlotIx) : Offer :=
  { source := .exchange, slot := k, length := 0#4, data := Table.fill 8 0#16, stamp := s.time, snapshot := true,
    passed := false, order := s.nextOrder }

/-- `p` joins the requester set of the record. -/
def Slot.addRequester (p : Port) (r : Slot) : Slot := { r with requesters := r.requesters.insert p }

/-- A round begins on slot `k`: `p` joins the empty set, the deadline is armed, and the owner is sent a REQUEST note or an
echo is appended (R93, R94). -/
def State.beginRound (s : State) (p : Port) (k : SlotIx) : State :=
  let c := (s.slot k).config
  let t := s.modSlot k fun r =>
    { Slot.addRequester p r with deadline := some (s.time + milliseconds c.requestDeadline) }
  match c.answer with
  | .ownerAnswers => t.appendNote c.owner (s.noteOf .request k)
  | .autoAnswer => t.appendEntry (s.newEcho k)

/-- The Request Unit takes REQUEST (R91 to R94, R105). -/
def takeRequest (p : Port) (n : Byte) (s : State) : State :=
  match s.checkRequest p n with
  | .error r => s.refuse p r
  | .ok k =>
    if (s.slot k).requesters.isEmpty then ((s.beginRound p k).post p .done).offerAct .request false k (.port p)
    else ((s.modSlot k (Slot.addRequester p)).post p .done).offerAct .request true k (.port p)

/-- The record with its requester set empty and its deadline disarmed (R89, R90). -/
def Slot.endRound (r : Slot) : Slot := { r with requesters := PortSet.empty, deadline := none }

/-- Slot `k`'s requesters are timed out: a REQUEST_TIMEOUT note to each, the set emptied, the deadline disarmed (R14, R49,
R98, R102). -/
def State.timeOutRequesters (s : State) (k : SlotIx) : State :=
  (s.tell (s.slot k).requesters .requestTimeout k).modSlot k Slot.endRound

/-- `p` out of the requester set of a record, without a note; a set that empties through this has its deadline disarmed
(R100, R101). -/
def Slot.dropRequester (p : Port) (r : Slot) : Slot :=
  if r.requesters.has p then
    let x := r.requesters.erase p
    { r with requesters := x, deadline := if x.isEmpty then none else r.deadline }
  else r

/-- The deadline of slot `k` expires, once the time base has reached its expiry time and while the time base runs (R98). The
owner of an OWNER_ANSWERS slot is penalised 8 where no flagged value of its is present. -/
def expireDeadline (k : SlotIx) (s : State) : State :=
  match (s.slot k).deadline with
  | none => s
  | some d =>
    if s.timeRuns && s.reached d then
      let t := s.timeOutRequesters k
      if (s.slot k).config.answer = .ownerAnswers ∧ s.answerPresent k = false then
        t.report (s.slot k).config.owner (.penalty Config.deadlinePenalty)
      else t
    else s

/-! ### The three parts of a landing (R39) -/

/-- The in-flight landing with its record changed. -/
def State.modFlight (s : State) (f : Landing → Landing) : State := { s with flight := s.flight.map f }

/-- The Request Unit takes the service of the in-flight landing: it lists and empties the requester set and disarms the
deadline (R97). -/
def serveLanding (s : State) : State :=
  match s.flight with
  | none => s
  | some l =>
    match l.served with
    | some _ => s
    | none =>
      (s.modSlot l.offer.slot Slot.endRound).modFlight fun x =>
        { x with served := some (s.slot l.offer.slot).requesters }

/-- The NEW_VALUE note of a landing on slot `k`, for a served requester or another subscriber (R71, R74). -/
def State.newValueNote (s : State) (k : SlotIx) (reply : Bool) : Note :=
  { s.noteOf .newValue k with sequence := (s.slot k).value.sequence, reply := reply }

/-- The ports a landing on slot `k` is told to: the subscribers and the served requesters, but for a requester that has become
CLOSED since the service, which joins no set and has its note discarded (R71, R84, R85). -/
def State.toldOf (s : State) (k : SlotIx) (served : PortSet) : PortSet :=
  PerPort.ofFn fun p => s.subscribes k p || (served.has p && (s.noteUnit p).delivery == .delivering)

/-- The Notification Unit takes its part of the in-flight landing, after the service: the missed and unread sets are
rewritten and a NEW_VALUE note goes to each member of the new unread set (R71). -/
def notifyLanding (s : State) : State :=
  match s.flight with
  | none => s
  | some l =>
    match l.served with
    | none => s
    | some served =>
      if l.notified then s
      else
        let k := l.offer.slot
        let told := s.toldOf k served
        let t := s.modSlot k fun r => { r with missed := r.missed.union r.unread, unread := told }
        (t.appendEach told fun p => s.newValueNote k (served.has p)).modFlight fun x => { x with notified := true }

/-- The Time Unit takes its part of the in-flight landing: STALE is cleared, and the freshness timer is armed on a slot that
is not RETIRING and has a freshness limit (R112). -/
def timeLanding (s : State) : State :=
  match s.flight with
  | none => s
  | some l =>
    if l.timed then s
    else
      (s.modSlot l.offer.slot fun r =>
        { r with
          stale := false
          freshness :=
            if r.state ≠ .retiring ∧ r.config.freshnessLimit ≠ 0#12 then
              some (s.time + milliseconds r.config.freshnessLimit)
            else r.freshness }).modFlight fun x => { x with timed := true }

/-- The ports whose VIEW waits behind a landing on slot `k`. -/
def State.waitersOn (s : State) (k : SlotIx) : List Port :=
  Port.all.filter fun p => s.phaseOf p == some (.behindLanding k)

/-- The end of a landing on slot `k`, the mark cleared: the Control Unit takes it, and the Slot Table tests a RETIRING slot (R16,
R39). The grant of a VIEW that waited behind the landing and the completion of the retirement both reach the slot there, and which
is taken first is free (R56); so is the order of that grant and of the Control Unit's taking of the end (log entry 3). -/
def State.landingOver (s : State) (k : SlotIx) : State :=
  if s.retirementDue k then
    match s.waitersOn k with
    | [] => s.landingEnded.completeRetirement k
    | w :: ws =>
      let c := s.pick ((w :: ws).length + 1)
      match (w :: ws)[c.1]? with
      | some p =>
        let d := c.2.pick 2
        if d.1 = 0 then d.2.landingEnded.grantWaiting p else (d.2.grantWaiting p).landingEnded
      | none => c.2.landingEnded.completeRetirement k
  else s.landingEnded

/-- The in-flight landing ends when its three parts have finished: the mark is cleared, the Control Unit takes the end, and a
RETIRING slot is tested (R39). -/
def endLanding (s : State) : State :=
  match s.flight with
  | none => s
  | some l =>
    if l.served.isSome && l.notified && l.timed then { s with flight := none }.landingOver l.offer.slot else s

/-! ### The Time Unit (R106, R110, R111, R113) -/

/-- Has the time base reached the expiry time of a timer, if it is armed? -/
def State.ripeTimer (s : State) (t : Option Time) : Bool := t.any s.reached

/-- Does an expiry that the time base has reached wait for its block to take it: of a hold, of a REJOINING port's quiet interval,
of a deadline or of a freshness timer (R108)? -/
def State.timerDue (s : State) : Bool :=
  (Port.all.any fun p =>
    s.ripeTimer ((s.hold p).map fun h => h.expiry) ||
      ((s.healthOf p).state == .rejoining && s.ripeTimer (s.healthOf p).quiet)) ||
  allSlots.any fun k => s.ripeTimer (s.slot k).deadline || s.ripeTimer (s.slot k).freshness

/-- One cycle of CLK (R106, R107). A timer expires at the advance that reaches its expiry time (R108): the time base does not
advance past an expiry that its block has not taken (log entry 8). -/
def tick (s : State) : State :=
  if s.timeRuns then
    if s.prescaler = 15#4 then
      if s.timerDue then s else { s with prescaler := 0#4, time := s.time + 1#32 }
    else { s with prescaler := s.prescaler + 1#4 }
  else s

/-- Every armed timer of the part moved by `d` (R111). -/
def State.moveTimers (s : State) (d : Time) : State :=
  { s.mapSlots fun r => { r with deadline := r.deadline.map (· + d), freshness := r.freshness.map (· + d) } with
    holds := PerPort.ofFn fun p => (s.hold p).map fun h => { h with expiry := h.expiry + d }
    health := PerPort.ofFn fun p => { s.healthOf p with quiet := (s.healthOf p).quiet.map (· + d) } }

/-- The Time Unit takes SET_TIME: ARG1 is the high half and ARG0 the low half of the new value (R110, R111). -/
def takeSetTime (p : Port) (s : State) : State :=
  let v : Time := (s.port p).arg1 ++ (s.port p).arg0
  ({ s.moveTimers (v - s.time) with time := v, prescaler := 0#4 }).post p .done

/-- The freshness timer of slot `k` expires, once the time base has reached its expiry time and while the time base runs
(R113). -/
def expireFreshness (k : SlotIx) (s : State) : State :=
  match (s.slot k).freshness with
  | none => s
  | some d =>
    if s.timeRuns && s.reached d then
      (s.modSlot k fun r => { r with freshness := none, stale := true }).tell (s.subscribers k) .stale k
    else s

end Sys2Proof.Machine
end

