-- ==== Sys2Proof/Machine/Slots.lean ====
section
/-! DEFINITION. The Slot Table's commands: configuring a slot (R9 to R12) and retiring one (R13, R14). The token check that
every token command passes first (R143) stands here too. -/

namespace Sys2Proof.Machine

open Sys2Proof

/-- The token check of a token command, before the command's own checks (R143). -/
def State.ifToken (s : State) (p : Port) (f : State → State) : State :=
  if s.token = some p then f s else s.refuse p .noToken

/-- Does a slot other than `k` that is not UNUSED carry the identifier (R10, R12)? -/
def State.identifierInUse (s : State) (k : SlotIx) (i : Ident) : Bool :=
  allSlots.any fun j => j != k && (s.slot j).state != .unused && (s.slot j).config.identifier == i

/-- The checks of CONFIGURE_SLOT, in order (R10). -/
def State.checkConfigure (s : State) (p : Port) (n : Byte) : Except Result SlotIx :=
  match slotOf n with
  | none => .error .noSlot
  | some k =>
    let u := s.port p
    match (s.slot k).state with
    | .retiring => .error .retiring
    | .opened | .live => .error .slotInUse
    | .unused =>
      if badConfigArgs u.arg0 u.arg1 u.arg2 then .error .badArgument
      else if s.identifierInUse k (configOfArgs u.arg0 u.arg1 u.arg2).identifier then .error .idInUse
      else .ok k

/-- A newly configured slot record; ORPHANED is set where the owner is DETACHED or REJOINING (R11). -/
def Slot.configured (c : SlotConfig) (ownerOutside : Bool) : Slot :=
  { Slot.cleared with config := c, state := .opened, orphaned := ownerOutside }

/-- The Slot Table takes CONFIGURE_SLOT (R10, R11). -/
def takeConfigure (p : Port) (n : Byte) (s : State) : State :=
  match s.checkConfigure p n with
  | .error r => s.refuse p r
  | .ok k =>
    let u := s.port p
    let c := configOfArgs u.arg0 u.arg1 u.arg2
    ((s.modSlot k fun _ => Slot.configured c (!s.inside c.owner)).post p .done).offerAct .config false k (.port p)

/-- The check of RETIRE_SLOT (R13). -/
def State.checkRetire (s : State) (n : Byte) : Except Result SlotIx := s.checkSlot n

/-- Every entry in the Publication Queue that names slot `k` is dropped, oldest first, with its DROPPED note (step 2 of
R14). -/
def State.dropEntries (s : State) (k : SlotIx) : State :=
  (s.queue.filter fun o => o.slot == k).foldl (fun t o => t.tellDropped o.source k)
    { s with queue := s.queue.filter fun o => o.slot != k }

/-- Slot `k`'s pending or due value is discarded, with its DROPPED note, and the slot leaves the ripe list (step 3 of R14,
R44). -/
def State.dropParked (s : State) (k : SlotIx) : State :=
  let t := s.reclaimDue k
  match (t.slot k).parked with
  | none => t
  | some o => ((t.setParked k none).unripen k).tellDropped o.source k

/-- Steps 1 to 5 of the retirement of slot `k` (R14). -/
def State.retireSteps (s : State) (k : SlotIx) : State :=
  let t := s.modSlot k fun r => { r with state := .retiring }
  (((t.dropEntries k).dropParked k).timeOutRequesters k).modSlot k fun r => { r with freshness := none }

/-- The Slot Table takes RETIRE_SLOT (R13, R14). After step 5 the slot is tested, and a retirement that completes does so as its
command completes (R16); the act is offered to the Watch Unit after DONE, with its effects at the Slot Table done (R14, R164), so
that a capture entry shows the identifier and sequence number that the record then has (R163). -/
def takeRetire (p : Port) (n : Byte) (s : State) : State :=
  match s.checkRetire n with
  | .error r => s.refuse p r
  | .ok k => (((s.retireSteps k).testRetirement k).post p .done).offerAct .config true k (.port p)

end Sys2Proof.Machine
end

