-- ==== Sys2Proof/Machine/Health.lean ====
section
/-! DEFINITION. The Health Unit: penalties and credits (R118 to R122), detachment (R124 to R129), EXPEL (R130), rejoining (R131 to
R134). -/

namespace Sys2Proof.Machine

open Sys2Proof

/-! ### The score -/

/-- A detachment of `p` begins: its detaching mark is set, the cause is written, and a command of `p`'s that is taken and
not finished is answered DETACHED (R124). Its steps are taken by DETACHMENT. -/
def State.markDetaching (s : State) (p : Port) (cause : DetachCause) : State :=
  (s.modHealth p fun h => { h with mark := true, cause := cause }).answerDetached p

/-- The ports whose marks have been set together wait for their steps, behind those that wait already (R124). -/
def State.waitToDetach (s : State) (ps : List Port) : State :=
  match ps with
  | [] => s
  | _ :: _ => { s with detachQueue := s.detachQueue ++ [ps] }

/-- The score raised to `n`, with WARN and the passage to DEGRADED at 128 (R119, R121). -/
def Health.raised (h : Health) (n : Nat) : Health :=
  { h.withScore n with
    state := if h.state = .active ∧ Config.degradeAt ≤ n then .degraded else h.state }

/-- A disturbance of a REJOINING port: the count becomes 0 and the interval starts afresh at `now` (R133). -/
def Health.disturbed (h : Health) (now : Time) : Health :=
  { h with rejoinCount := 0, quiet := some (now + Config.quietSpan) }

/-- The Health Unit takes a disturbance of `p`, which counts in REJOINING alone (R133). -/
def State.takeDisturbance (s : State) (p : Port) : State :=
  if (s.healthOf p).state = .rejoining then s.modHealth p fun h => h.disturbed s.time else s

/-- The Health Unit takes a penalty of `n` for `p` (R119). -/
def State.takePenalty (s : State) (p : Port) (n : Nat) : State :=
  let h := s.healthOf p
  if h.mark then s
  else
    match h.state with
    | .active | .degraded =>
      if h.score + n ≤ Config.scoreMax then s.modHealth p fun x => x.raised (h.score + n)
      else s.markDetaching p .score
    | .detached => s
    | .rejoining => s.takeDisturbance p

/-- The score lowered by a credit, with WARN and the return to ACTIVE at 64 (R120, R121). -/
def Health.credited (h : Health) : Health :=
  { h.withScore (h.score - 1) with
    state := if h.state = .degraded ∧ h.score - 1 ≤ Config.restoreAt then .active else h.state }

/-- The Health Unit takes a credit of 1 for `p` (R120). -/
def State.takeCredit (s : State) (p : Port) : State :=
  let h := s.healthOf p
  if h.mark || h.state.outside then s else s.modHealth p Health.credited

/-- The Health Unit takes one report. -/
def State.takeReport (s : State) (r : Report) : State :=
  match r.kind with
  | .penalty n => s.takePenalty r.port n
  | .credit => s.takeCredit r.port
  | .disturbance => s.takeDisturbance r.port

/-- The Health Unit takes the reports for `p`, one at a time. Reports from the Notification Unit and from another block for
one port come together, and either block's are taken first: a free choice (R118, log entry 3). -/
def State.takeReportsOf (s : State) (rs : List Report) (p : Port) : State :=
  let mine := rs.filter fun r => r.port == p
  let ns := mine.filter fun r => r.byNotification
  let os := mine.filter fun r => !r.byNotification
  if ns.isEmpty || os.isEmpty then mine.foldl State.takeReport s
  else
    let c := s.pick 2
    (if c.1 = 0 then ns ++ os else os ++ ns).foldl State.takeReport c.2

/-- The Health Unit takes the reports of a command, a step of a detachment or another event, and the ports whose detaching marks
this sets wait for their steps together (R118, R119, R124; log entry 6). -/
def State.settle (s : State) : State :=
  let rs := s.reports
  let t := Port.all.foldl (fun u p => u.takeReportsOf rs p) { s with reports := [] }
  t.waitToDetach (Port.all.filter fun p => (t.healthOf p).mark && !(s.healthOf p).mark)

/-! ### The steps of a detachment (R125 to R127) -/

/-- Step 1: the token is freed if `p` holds it. -/
def State.freeToken (s : State) (p : Port) : State := if s.token = some p then { s with token := none } else s

/-- The slots owned by `p`, not UNUSED, in which a port waits as a requester (R102). -/
def State.askedOf (s : State) (p : Port) : List SlotIx :=
  allSlots.filter fun k =>
    (s.slot k).config.owner == p && (s.slot k).state != .unused && !(s.slot k).requesters.isEmpty

/-- Step 4: `p` leaves every requester set, joins the lost-owner set, and the requesters on its slots are timed out (R101,
R102). The order of the slots is free. -/
def State.detachRequests (s : State) (p : Port) : State :=
  let t := { s.mapSlots (Slot.dropRequester p) with lostOwners := s.lostOwners.insert p }
  let c := t.shuffle (t.askedOf p)
  c.1.foldl (fun u k => u.timeOutRequesters k) c.2

/-- Step 5: the queue is flushed, `p` leaves every unread and missed set, and becomes CLOSED (R85). -/
def State.detachNotes (s : State) (p : Port) : State :=
  (s.flushNotes p).modNotes p fun m => { m with delivery := .closed }

/-- The slots owned by `p` that are not UNUSED (R127). -/
def State.ownedBy (s : State) (p : Port) : List SlotIx :=
  allSlots.filter fun k => (s.slot k).config.owner == p && (s.slot k).state != .unused

/-- The health record of a port that becomes REJOINING at the time `now` (R131). -/
def Health.rejoin (h : Health) (now : Time) : Health :=
  { h with state := .rejoining, rejoinCount := 0, quiet := some (now + Config.quietSpan) }

/-- The health record at step 7, with auto-rejoin at once where the cause is SCORE and the policy is on (R127). -/
def Health.detachedAt (h : Health) (now : Time) : Health :=
  let g := { h.withScore 0 with state := .detached, rejoinCount := 0, quiet := none, mark := false }
  if h.cause = .score ∧ h.autoRejoin then g.rejoin now else g

/-- ORPHANED is set on slot `k`, and its subscribers are told (step 6, R127). -/
def State.orphan (s : State) (k : SlotIx) : State :=
  (s.modSlot k fun r => { r with orphaned := true }).tell (s.subscribers k) .orphaned k

/-- EXPEL of `target` is taken again now that the detachment it waited for has ended: the port is DETACHED, or REJOINING and
sent back (R130). -/
def State.expelOutside (s : State) (target : Port) : State :=
  if (s.healthOf target).state = .rejoining then
    s.modHealth target fun h => { h with state := .detached, cause := .expelled, rejoinCount := 0, quiet := none }
  else s

/-- The detachment of `p` has ended: the EXPEL that began it completes with DONE, and one that waited for it is taken by the
rows for a DETACHED or REJOINING port (R127, R130). The EXPELs that wait stand in their issuers' command units: a port reset of the
issuer, which abandons the command unit, ends one that has begun no detachment (R141, R184; log entry 24). -/
def State.finishExpels (s : State) (p : Port) : State :=
  Port.all.foldl (fun t q =>
    match t.phaseOf q with
    | some (.expelling target began) =>
      if target = p then (if began then t else t.expelOutside p).post q .done else t
    | some .taken | some .afterRestart | some (.behindLanding _) | some .slotGone | none => t) s

/-- Steps 6 and 7, one operation: the slots of `p` become ORPHANED, in a free order, and `p` becomes DETACHED (R127). -/
def State.detachOrphan (s : State) (p : Port) : State :=
  let c := s.shuffle (s.ownedBy p)
  let t := c.1.foldl State.orphan c.2
  (t.modHealth p fun h => h.detachedAt t.time).finishExpels p

/-- One step of the detachment of `p` (R125 to R127). -/
def State.detachStep (s : State) (p : Port) : DetachStep → State
  | .token => s.freeToken p
  | .hold => s.endHold p
  | .publications => s.discardPublications p
  | .requests => s.detachRequests p
  | .notes => s.detachNotes p
  | .orphan => s.detachOrphan p

/-- The step after a step. -/
def stepAfter : DetachStep → Option DetachStep
  | .token => some .hold
  | .hold => some .publications
  | .publications => some .requests
  | .requests => some .notes
  | .notes => some .orphan
  | .orphan => none

/-- The place of a step. -/
def stepPlace : DetachStep → Nat
  | .token => 1
  | .hold => 2
  | .publications => 3
  | .requests => 4
  | .notes => 5
  | .orphan => 6

/-- The steps of the detachment of `p` from `st` up to and including `upTo`; what is left to do stands in `detaching`. The reports
of a step are taken before the next step (R124, log entry 6). `fuel` bounds the number of steps. -/
def State.runDetach (p : Port) (upTo : DetachStep) : Nat → DetachStep → State → State
  | 0, st, s => { s with detaching := some (p, st) }
  | fuel + 1, st, s =>
    if stepPlace upTo < stepPlace st then { s with detaching := some (p, st) }
    else
      match stepAfter st with
      | none => { (s.detachStep p st).settle with detaching := none }
      | some st' => State.runDetach p upTo fuel st' (s.detachStep p st).settle

/-- The waiting detachments without `p`, which stands among the first. -/
def dropWaiting (p : Port) : List (List Port) → List (List Port)
  | [] => []
  | ps :: rest =>
    match ps.filter fun q => q != p with
    | [] => rest
    | qs => qs :: rest

/-- The Health Unit goes on with the detachment of `p` up to step `upTo`: the running one, or, with none running, one of
those whose marks were set first (R124). -/
def runDetachment (p : Port) (upTo : DetachStep) (s : State) : State :=
  match s.detaching with
  | some (q, st) => if q = p then s.runDetach p upTo 6 st else s
  | none =>
    match s.detachQueue with
    | ps :: _ =>
      if p ∈ ps then { s with detachQueue := dropWaiting p s.detachQueue }.runDetach p upTo 6 .token else s
    | [] => s

/-! ### EXPEL, REJOIN, SET_REJOIN_POLICY -/

/-- The Health Unit takes EXPEL (R130). -/
def takeExpel (p : Port) (s : State) : State :=
  match portOfNumber (s.port p).arg0 with
  | none => s.refuse p .badArgument
  | some q =>
    if q = p then s.refuse p .badArgument
    else if (s.healthOf q).mark then s.setPhase p (.expelling q false)
    else
      match (s.healthOf q).state with
      | .active | .degraded => ((s.setPhase p (.expelling q true)).markDetaching q .expelled).waitToDetach [q]
      | .rejoining | .detached => (s.expelOutside q).post p .done

/-- The Health Unit takes SET_REJOIN_POLICY (R132). -/
def takeRejoinPolicy (p : Port) (s : State) : State :=
  let u := s.port p
  match portOfNumber u.arg0 with
  | none => s.refuse p .badArgument
  | some q =>
    if 1 < u.arg1.toNat then s.refuse p .badArgument
    else (s.modHealth q fun h => { h with autoRejoin := u.arg1 == 1#16 }).post p .done

/-- The Health Unit takes REJOIN (R131). -/
def takeRejoin (p : Port) (s : State) : State :=
  match (s.healthOf p).state with
  | .detached => (s.modHealth p fun h => h.rejoin s.time).post p .done
  | .active | .degraded | .rejoining => s.refuse p .notDetached

/-! ### Rejoining (R133, R134) -/

/-- The health record of a port that returns to ACTIVE (R134). -/
def Health.returned (h : Health) : Health :=
  { h.withScore 0 with state := .active, cause := .none, rejoinCount := 0, quiet := none }

/-- `p` is reported ACTIVE to the Notification Unit, the Request Unit and the Slot Table (R134). The Port Unit takes its
commands by the health state itself. -/
def State.reportActive (s : State) (p : Port) : State :=
  { (s.modNotes p fun m => { m with delivery := .delivering }).mapSlots
      (fun r => if r.config.owner = p then { r with orphaned := false } else r) with
    lostOwners := s.lostOwners.erase p }

/-- A REJOINING port's quiet interval ends, once the time base has reached its end and while the time base runs (R133). -/
def endQuiet (p : Port) (s : State) : State :=
  let h := s.healthOf p
  match h.quiet with
  | none => s
  | some t =>
    if h.state = .rejoining ∧ s.timeRuns ∧ s.reached t then
      if h.rejoinCount + 1 = Config.quietCount then (s.modHealth p Health.returned).reportActive p
      else s.modHealth p fun x => { x with rejoinCount := x.rejoinCount + 1, quiet := some (t + Config.quietSpan) }
    else s

end Sys2Proof.Machine
end

