-- ==== Sys2Proof/Machine/Commands.lean ====
section
/-! DEFINITION. The commands of the Control Unit and the Watch Unit (R138, R139, R144, R150, R152, R154, R157, R158, R160, R161,
R166), SET_HOLD_TIMEOUT (R60), and the command unit that takes a write to COMMAND (R171 to R173). -/

namespace Sys2Proof.Machine

open Sys2Proof

/-! ### The token (R138, R139) -/

/-- The Control Unit takes CLAIM_TOKEN (R138). -/
def takeClaim (p : Port) (s : State) : State :=
  if (s.healthOf p).state = .degraded then s.refuse p .degraded
  else
    match s.token with
    | some q => if q = p then s.post p .done else s.refuse p .tokenHeld
    | none => { s with token := some p }.post p .done

/-- The Control Unit takes YIELD_TOKEN (R139). -/
def takeYield (p : Port) (s : State) : State :=
  if s.token = some p then { s with token := none }.post p .done else s.refuse p .noToken

/-! ### RESTART, FREEZE, STEP, RESUME -/

/-- The Control Unit takes RESTART: the restart mark is set, and the command stays BUSY until the restart has ended (R144). -/
def takeRestart (s : State) : State := { s with restartMark := true }

/-- The Control Unit takes FREEZE (R150). A FREEZE that finds no freeze to make completes at once; any other completes as the
exchange becomes FROZEN. -/
def takeFreeze (p : Port) (s : State) : State :=
  match s.exchange with
  | .running | .stepping => s.callFreeze
  | .freezing => s
  | .frozen => s.post p .done
  | .restarting => s

/-- The Control Unit takes STEP: the earliest ripe value, or else the head entry (R152). -/
def takeStepCommand (p : Port) (s : State) : State :=
  match s.exchange with
  | .frozen =>
    match s.ripe with
    | k :: _ => { s with exchange := .stepping, task := some (.step (.ripe k)) }
    | [] =>
      match s.queue with
      | o :: _ => { s with exchange := .stepping, task := some (.step (.head o.order)) }
      | [] => s.refuse p .nothingQueued
  | .running | .freezing | .stepping | .restarting => s.refuse p .notFrozen

/-- The Control Unit takes RESUME: straight to RUNNING, or into the drain of the ripe list (R154). -/
def takeResume (p : Port) (s : State) : State :=
  match s.exchange with
  | .frozen =>
    match s.ripe with
    | k :: _ => { s with exchange := .stepping, task := some (.drain k) }
    | [] => { s with exchange := .running }.post p .done
  | .running | .freezing | .stepping | .restarting => s.refuse p .notFrozen

/-! ### INSPECT, CANCEL_HEAD -/

/-- What an INSPECT of entry `o` at position `i` copies: an echo shows length 0 and data word 0 (R157). -/
def State.inspection (s : State) (i : BitVec 3) (o : Offer) : Inspection :=
  { position := i, queueCount := s.queue.length, ripeCount := s.ripe.length, source := o.source, slot := o.slot,
    length := if o.isEcho then 0#4 else o.length,
    word0 := if o.isEcho ∨ o.length = 0#4 then 0#16 else o.data.get ⟨0, by decide⟩,
    stamp := o.stamp, snapshot := o.snapshot, passed := o.passed }

/-- The Control Unit takes INSPECT (R157). -/
def takeInspect (p : Port) (s : State) : State :=
  if s.exchange ≠ .frozen then s.refuse p .notFrozen
  else
    match indexOfArg (s.port p).arg0 with
    | none => s.refuse p .badArgument
    | some i =>
      match s.queue[i.toNat]? with
      | none => s.refuse p .nothingQueued
      | some o => (s.modPort p fun u => { u with maintenance := .inspect (s.inspection i o) }).post p .done

/-- The Control Unit takes CANCEL_HEAD: a port's entry is dropped with its DROPPED note, and an echo times out the slot's
requesters (R49, R158). -/
def takeCancelHead (p : Port) (s : State) : State :=
  if s.exchange ≠ .frozen then s.refuse p .notFrozen
  else
    match s.queue with
    | [] => s.refuse p .nothingQueued
    | o :: rest =>
      let t := { s with queue := rest }
      (if o.isEcho then t.timeOutRequesters o.slot else t.tellDropped o.source o.slot).post p .done

/-! ### SET_HOLD_TIMEOUT -/

/-- The View Unit takes SET_HOLD_TIMEOUT (R60). -/
def takeHoldTimeout (p : Port) (s : State) : State :=
  let a := (s.port p).arg0
  if a = 0#16 ∨ 255 < a.toNat then s.refuse p .badArgument
  else { s with holdTimeout := a.setWidth 8 }.post p .done

/-! ### The watch -/

/-- The watch that ARM_WATCH's arguments set, armed, with nothing captured; none when an argument is out of range (R160). -/
def watchOfArgs (arg0 arg1 arg2 : Word) : Option Watch :=
  match watchSlotOfArg arg0, watchSourceOfArg arg1, watchActionOfArg arg2 with
  | some k, some src, some a =>
    if arg2.extractLsb' 0 4 = 0#4 then none
    else
      some { armed := true, slot := k, source := src, onLanding := arg2.getLsbD 0, onView := arg2.getLsbD 1,
             onRequest := arg2.getLsbD 2, onConfig := arg2.getLsbD 3, action := a, captures := [], matchCount := 0#16 }
  | _, _, _ => none

/-- The Watch Unit takes ARM_WATCH (R160). -/
def takeArm (p : Port) (s : State) : State :=
  let u := s.port p
  match watchOfArgs u.arg0 u.arg1 u.arg2 with
  | none => s.refuse p .badArgument
  | some w => { s with watch := w }.post p .done

/-- The Watch Unit takes DISARM_WATCH (R161). -/
def takeDisarm (p : Port) (s : State) : State := { s with watch := { s.watch with armed := false } }.post p .done

/-- What a READ_CAPTURE of index `i` copies (R166). -/
def Watch.reading (w : Watch) (i : BitVec 3) : CaptureReading :=
  { index := i, present := w.captures.length, matchCount := w.matchCount, armed := w.armed,
    entry := w.captures[i.toNat]? }

/-- The Watch Unit takes READ_CAPTURE (R166). -/
def takeReadCapture (p : Port) (s : State) : State :=
  match indexOfArg (s.port p).arg0 with
  | none => s.refuse p .badArgument
  | some i => (s.modPort p fun u => { u with maintenance := .capture (s.watch.reading i) }).post p .done

/-! ### Port reset (R184) -/

/-- The View Unit's part (R65) and the Notification Unit's part (R87) of the reset of `p`. They stand in no order; the order is
seen only where the end of the hold completes a retirement, whose RETIRED notes reach the queues, and there it is free (log
entry 3). -/
def State.resetViewAndNotes (s : State) (p : Port) : State :=
  if s.endRetires p then
    let c := s.pick 2
    if c.1 = 0 then (c.2.endHold p).resetNotes p else (c.2.resetNotes p).endHold p
  else (s.endHold p).resetNotes p

/-- The port reset of `p`: the Port Unit's own records, with the command unit left BUSY with `busy`, and then the part of
every other block (R184). The Health Unit takes it as a disturbance (R135). -/
def State.resetPort (s : State) (p : Port) (busy : Option Busy) : State :=
  let t := s.modPort p fun _ => { PortUnit.reset with unit := { CommandUnit.reset with busy := busy } }
  (((((t.resetViewAndNotes p).withdraw p).mapSlots (Slot.dropRequester p)).freeToken p).report p .disturbance)

/-! ### The command unit -/

/-- A command is passed to the block that owns it, which takes it (R143, R171). A token command makes the token check first.
RESET_PORT has no owning block: the command unit takes it itself (R183). -/
def takeCommand (c : Command) (p : Port) (n : Byte) (s : State) : State :=
  match c with
  | .publish => takePublish p n s
  | .view => takeView p n s
  | .release => takeRelease p s
  | .request => takeRequest p n s
  | .claimToken => takeClaim p s
  | .yieldToken => takeYield p s
  | .configureSlot => s.ifToken p (takeConfigure p n)
  | .retireSlot => s.ifToken p (takeRetire p n)
  | .setHoldTimeout => s.ifToken p (takeHoldTimeout p)
  | .setTime => s.ifToken p (takeSetTime p)
  | .setRejoinPolicy => s.ifToken p (takeRejoinPolicy p)
  | .expel => s.ifToken p (takeExpel p)
  | .restart => s.ifToken p takeRestart
  | .freeze => s.ifToken p (takeFreeze p)
  | .resume => s.ifToken p (takeResume p)
  | .step => s.ifToken p (takeStepCommand p)
  | .inspect => s.ifToken p (takeInspect p)
  | .cancelHead => s.ifToken p (takeCancelHead p)
  | .armWatch => s.ifToken p (takeArm p)
  | .disarmWatch => s.ifToken p (takeDisarm p)
  | .readCapture => s.ifToken p (takeReadCapture p)
  | .rejoin => takeRejoin p s
  | .resetPort => s

/-- The command unit takes a write: it becomes BUSY, clears its done flag, and keeps the code and the slot number (R171). -/
def State.acceptWrite (s : State) (p : Port) (c : Command) (n : Byte) : State :=
  s.modPort p fun u => { u with unit := { u.unit with busy := some ⟨c, n, .taken⟩, done := false } }

/-- Does the Port Unit refuse the command with DETACHED (R171, checks 3 and 4)? -/
def State.refusesDetached (s : State) (p : Port) (c : Command) : Bool :=
  let h := s.healthOf p
  if c = .rejoin then h.state == .rejoining || h.mark else h.state.outside || h.mark

/-- A command overrun: the word is ignored, the overrun flag is set, and a penalty of 4 is reported (R173). -/
def State.overrun (s : State) (p : Port) : State :=
  (s.modPort p fun u => { u with unit := { u.unit with overrun := true } }).report p (.penalty Config.refusalPenalty)

/-- A write of RESET_PORT to COMMAND: the port reset begins, and the command unit is BUSY until RESET_PORT_DONE; one written
while the port's own RESET_PORT is in progress joins it (R183). -/
def State.writeResetPort (s : State) (p : Port) (n : Byte) : State :=
  if s.inHand p .resetPort then s else s.resetPort p (some ⟨.resetPort, n, .taken⟩)

/-- A write of a defined command to COMMAND (R171): RESET_PORT is taken in every state; a BUSY unit answers any other with an
overrun; an IDLE one makes the Port Unit's own checks and passes the command on, or keeps it while the exchange is
RESTARTING (R147). -/
def State.writeCommand (s : State) (p : Port) (c : Command) (n : Byte) : State :=
  if c = .resetPort then s.writeResetPort p n
  else if (s.port p).unit.busy.isSome then s.overrun p
  else
    let t := s.acceptWrite p c n
    if t.refusesDetached p c then t.refuse p .detached
    else if t.exchange = .restarting then t.setPhase p .afterRestart
    else takeCommand c p n t

/-- A write of an undefined code to COMMAND: BAD_COMMAND, penalised, or an overrun of a BUSY unit (R171, check 2). -/
def State.writeUndefined (s : State) (p : Port) : State :=
  if (s.port p).unit.busy.isSome then s.overrun p
  else
    (s.modPort p fun u => { u with unit := u.unit.posted .badCommand }).report p
      (.penalty Config.refusalPenalty)

/-- A write of a word to COMMAND (R171, R176). -/
def State.writeCommandWord (s : State) (p : Port) (w : Word) : State :=
  match Command.ofCode (commandCode w) with
  | some c => s.writeCommand p c (commandSlot w)
  | none => s.writeUndefined p

/-! ### Restart and device reset (R145, R146, R181) -/

/-- The Slot Table's part of a restart (R25). -/
def Slot.restarted (r : Slot) : Slot :=
  match r.state with
  | .opened | .live => { Slot.cleared with config := r.config, state := .opened }
  | .unused | .retiring => Slot.cleared

/-- The health record after the Health Unit's part of a restart: the policy is kept (R136). -/
def Health.restarted (h : Health) : Health := { Health.reset with autoRejoin := h.autoRejoin }

/-- An EXPEL still BUSY completes with DONE (R136). -/
def State.completeExpels (s : State) : State :=
  Port.all.foldl (fun t q =>
    match t.phaseOf q with
    | some (.expelling _ _) => t.post q .done
    | some .taken | some .afterRestart | some (.behindLanding _) | some .slotGone | none => t) s

/-- The slots that a restart makes UNUSED out of RETIRING, whose waiting VIEWs are to be answered RETIRING (R25, R56). -/
def State.retiringSlots (s : State) : List SlotIx := allSlots.filter fun k => (s.slot k).state == .retiring

/-- The restart begins, with the restart mark set and no landing in flight: the exchange becomes RESTARTING, every block
takes its part, and a FREEZE, STEP, RESUME or EXPEL still BUSY completes with DONE (R145, R136, R167). A detachment whose first step
is still to be taken is dropped with the rest, and its port keeps the token (R136, R148, log entry 22). -/
def beginRestart (s : State) : State :=
  if s.restartMark && s.flight.isNone && s.exchange != .restarting then
    let t := s.retiringSlots.foldl State.viewsGone s
    let t := { t.mapSlots Slot.restarted with
      queue := [], due := [], ripe := []
      holds := PerPort.fill none
      notes := PerPort.ofFn fun p => { s.noteUnit p with queue := [], delivery := .delivering }
      lostOwners := PortSet.empty
      health := PerPort.ofFn fun p => (s.healthOf p).restarted
      detaching := none, detachQueue := []
      exchange := .restarting, freezeMark := false, task := none }
    (((t.completeAll .freeze).completeAll .step).completeAll .resume).completeExpels
  else s

/-- The ports whose commands wait through a restart (R147). -/
def State.waitingPorts (s : State) : List Port := Port.all.filter fun p => s.phaseOf p == some .afterRestart

/-- Port `p`'s waiting command is released to its owning block (R146, R147). A command that has been answered meanwhile waits no
more (R124). -/
def State.release (s : State) (p : Port) : State :=
  match (s.port p).unit.busy with
  | some b => takeCommand b.command p b.slotByte (s.setPhase p .taken)
  | none => s

/-- The restart ends: the mark is cleared, the exchange is RUNNING, every RESTART still BUSY completes with DONE, and the
waiting commands are released, in a free order (R146, R147, log entry 3), each with its reports taken before the next (log
entry 6). Their blocks take them within this event, with no other event between (log entry 25). -/
def endRestart (s : State) : State :=
  if s.exchange = .restarting then
    let t := { s with restartMark := false, exchange := .running }.completeAll .restart
    let c := t.shuffle t.waitingPorts
    c.1.foldl (fun u p => (u.release p).settle) c.2
  else s

/-- RESET_n goes low: every block is in its device reset condition, and the part is in reset (R181). The levels of the
lines PxRST_n stay (R181), and so do the queue of commands and the count of free choices, which are the model's own. -/
def State.deviceReset (s : State) : State :=
  { State.reset with inReset := true, lineLow := s.lineLow, pending := s.pending, freeCount := s.freeCount }

/-! ### Bus reads with a side effect (R169) -/

/-- A read of RESULT: the word is returned, then the done and overrun flags are cleared (R172). -/
def readResult (p : Port) (s : State) : State :=
  s.modPort p fun u =>
    { u with unit := { u.unit with done := false, overrun := false }, lastRead := some u.unit.resultWord }

/-- A read of TIME LOW: the low half of the time base is returned, and the high half is latched (R109). -/
def readTimeLow (p : Port) (s : State) : State :=
  s.modPort p fun u =>
    { u with timeLatch := s.time.extractLsb' 16 16, lastRead := some (s.time.extractLsb' 0 16) }

/-- RESET_PORT's DONE is posted once every block has taken its part of the reset (R183). -/
def finishResetPort (p : Port) (s : State) : State := if s.inHand p .resetPort then s.post p .done else s

/-! ### Events -/

/-- An event of the part and the reports it makes, taken by the Health Unit. While RESET_n is low the part takes no bus cycle
and does nothing (R181). -/
def event (f : State → State) (s : State) : Out := .next (if s.inReset then s else (f s).settle)

/-- A bus cycle of port `p`. While the port's PxRST_n is low its Port Unit takes none (R168, R182). -/
def cycle (p : Port) (f : State → State) (s : State) : Out := event (fun t => if t.lineLow.has p then t else f t) s

end Sys2Proof.Machine
end

