-- ==== Sys2Proof/Machine/ConfigCommands.lean ====
section
/-! DEFINITION. The meanings of the commands of the token, of configuration and of rejoining. Each is a write to COMMAND,
taken by the command unit (R171) and carried out by its owning block's `take…` operation. -/

namespace Sys2Proof.Machine

open Sys2Proof

/-- CLAIM_TOKEN (R138). -/
def execClaimToken (p : Port) (n : Byte) (s : State) : Out :=
  cycle p (fun t => t.writeCommand p .claimToken n) s

/-- YIELD_TOKEN (R139). -/
def execYieldToken (p : Port) (n : Byte) (s : State) : Out :=
  cycle p (fun t => t.writeCommand p .yieldToken n) s

/-- CONFIGURE_SLOT (R9 to R12). -/
def execConfigureSlot (p : Port) (n : Byte) (s : State) : Out :=
  cycle p (fun t => t.writeCommand p .configureSlot n) s

/-- RETIRE_SLOT (R13, R14). -/
def execRetireSlot (p : Port) (n : Byte) (s : State) : Out :=
  cycle p (fun t => t.writeCommand p .retireSlot n) s

/-- SET_HOLD_TIMEOUT (R60). -/
def execSetHoldTimeout (p : Port) (n : Byte) (s : State) : Out :=
  cycle p (fun t => t.writeCommand p .setHoldTimeout n) s

/-- SET_TIME (R110, R111). -/
def execSetTime (p : Port) (n : Byte) (s : State) : Out :=
  cycle p (fun t => t.writeCommand p .setTime n) s

/-- SET_REJOIN_POLICY (R132). -/
def execSetRejoinPolicy (p : Port) (n : Byte) (s : State) : Out :=
  cycle p (fun t => t.writeCommand p .setRejoinPolicy n) s

/-- EXPEL (R130). -/
def execExpel (p : Port) (n : Byte) (s : State) : Out :=
  cycle p (fun t => t.writeCommand p .expel n) s

/-- RESTART (R144). -/
def execRestart (p : Port) (n : Byte) (s : State) : Out :=
  cycle p (fun t => t.writeCommand p .restart n) s

/-- REJOIN (R131). -/
def execRejoin (p : Port) (n : Byte) (s : State) : Out :=
  cycle p (fun t => t.writeCommand p .rejoin n) s

end Sys2Proof.Machine
end

