-- ==== Sys2Proof/Machine/DebugCommands.lean ====
section
/-! DEFINITION. The meanings of the commands of freezing, stepping, inspection and watching. Each is a write to COMMAND,
taken by the command unit (R171) and carried out by its owning block's `take…` operation. -/

namespace Sys2Proof.Machine

open Sys2Proof

/-- FREEZE (R150). -/
def execFreeze (p : Port) (n : Byte) (s : State) : Out :=
  cycle p (fun t => t.writeCommand p .freeze n) s

/-- RESUME (R154). -/
def execResume (p : Port) (n : Byte) (s : State) : Out :=
  cycle p (fun t => t.writeCommand p .resume n) s

/-- STEP (R152). -/
def execStep (p : Port) (n : Byte) (s : State) : Out :=
  cycle p (fun t => t.writeCommand p .step n) s

/-- INSPECT (R157). -/
def execInspect (p : Port) (n : Byte) (s : State) : Out :=
  cycle p (fun t => t.writeCommand p .inspect n) s

/-- CANCEL_HEAD (R158). -/
def execCancelHead (p : Port) (n : Byte) (s : State) : Out :=
  cycle p (fun t => t.writeCommand p .cancelHead n) s

/-- ARM_WATCH (R160). -/
def execArmWatch (p : Port) (n : Byte) (s : State) : Out :=
  cycle p (fun t => t.writeCommand p .armWatch n) s

/-- DISARM_WATCH (R161). -/
def execDisarmWatch (p : Port) (n : Byte) (s : State) : Out :=
  cycle p (fun t => t.writeCommand p .disarmWatch n) s

/-- READ_CAPTURE (R166). -/
def execReadCapture (p : Port) (n : Byte) (s : State) : Out :=
  cycle p (fun t => t.writeCommand p .readCapture n) s

end Sys2Proof.Machine
end

