-- ==== Sys2Proof/Machine/ExchangeEvents.lean ====
section
/-! DEFINITION. The meanings of the events that the part's own blocks bring about: the taking and landing of values, timer
expiries, the steps of a detachment, the restart, and the time base. An event whose condition does not hold does not take
place, and leaves the state as it is (log entry 4). -/

namespace Sys2Proof.Machine

open Sys2Proof

/-- TAKE_NEXT_VALUE (R34 to R36, R153, R155). -/
def execTakeNextValue (s : State) : Out := event State.takeNext s

/-- LANDING_SERVICE (R97). -/
def execLandingService (s : State) : Out := event serveLanding s

/-- LANDING_NOTIFICATION (R71). -/
def execLandingNotification (s : State) : Out := event notifyLanding s

/-- LANDING_TIME_PART (R112). -/
def execLandingTimePart (s : State) : Out := event timeLanding s

/-- LANDING_END (R39). -/
def execLandingEnd (s : State) : Out := event endLanding s

/-- VIEW_GRANT (R56). -/
def execViewGrant (p : Port) (s : State) : Out := event (fun t => t.grantWaiting p) s

/-- HOLD_EXPIRY (R61). -/
def execHoldExpiry (p : Port) (s : State) : Out := event (expireHold p) s

/-- DEADLINE_EXPIRY (R98). -/
def execDeadlineExpiry (k : SlotIx) (s : State) : Out := event (expireDeadline k) s

/-- FRESHNESS_EXPIRY (R113). -/
def execFreshnessExpiry (k : SlotIx) (s : State) : Out := event (expireFreshness k) s

/-- QUIET_INTERVAL_END (R133, R134). -/
def execQuietIntervalEnd (p : Port) (s : State) : Out := event (endQuiet p) s

/-- DETACHMENT (R124 to R127), up to the step `upTo`. -/
def execDetachment (p : Port) (upTo : DetachStep) (s : State) : Out := event (runDetachment p upTo) s

/-- RESTART_BEGIN (R145). -/
def execRestartBegin (s : State) : Out := event beginRestart s

/-- RESTART_END (R146). -/
def execRestartEnd (s : State) : Out := event endRestart s

/-- TIME_BASE_ADVANCE (R106, R107). -/
def execTimeBaseAdvance (s : State) : Out := event tick s

end Sys2Proof.Machine
end

