-- ==== Sys2Proof/Machine/PortEvents.lean ====
section
/-! DEFINITION. The meanings of the other bus cycles of a port, and of the reset lines. -/

namespace Sys2Proof.Machine

open Sys2Proof

/-- UNDEFINED_COMMAND (R171): a write to COMMAND whose code is not defined. A term whose code is defined stands for the same
write, and has that command's meaning. -/
def execUndefinedCommand (p : Port) (code n : Byte) (s : State) : Out :=
  cycle p (fun t => t.writeCommandWord p (code ++ n)) s

/-- REGISTER_WRITE (R169): a stored word is stored; a write to a shown, read or unassigned word is ignored; a write at the
offset of COMMAND is offered to the command unit. -/
def execRegisterWrite (p : Port) (off : BitVec 6) (w : Word) (s : State) : Out :=
  cycle p (fun t => if off = 0#6 then t.writeCommandWord p w else t.writeStored p off w) s

/-- ATTENTION_ENABLE_WRITE (R83). -/
def execAttentionEnableWrite (p : Port) (w : Word) (s : State) : Out := cycle p (fun t => t.writeEnables p w) s

/-- RESULT_READ (R172). -/
def execResultRead (p : Port) (s : State) : Out := cycle p (readResult p) s

/-- TIME_LOW_READ (R109). -/
def execTimeLowRead (p : Port) (s : State) : Out := cycle p (readTimeLow p) s

/-- NOTE_TAKE (R59, R79). -/
def execNoteTake (p : Port) (s : State) : Out := cycle p (takeNote p) s

/-- RESET_PORT (R183): a command of the port, taken by the command unit itself. -/
def execResetPort (p : Port) (n : Byte) (s : State) : Out := cycle p (fun t => t.writeCommand p .resetPort n) s

/-- RESET_PORT_DONE (R183). -/
def execResetPortDone (p : Port) (s : State) : Out := event (finishResetPort p) s

/-- PORT_RESET (R182, R184): an edge of PxRST_n. The fall of a high line resets the port; while RESET_n is low it has no further
effect (R181). The rise of a low line changes nothing but its level. That one event stands for either edge, by the level the line has,
is the model's choice (log entry 21). -/
def execPortReset (p : Port) (s : State) : Out :=
  if s.lineLow.has p then .next { s with lineLow := s.lineLow.erase p }
  else event (fun t => t.resetPort p none) { s with lineLow := s.lineLow.insert p }

/-- DEVICE_RESET (R181): RESET_n goes low. -/
def execDeviceReset (s : State) : Out := .next s.deviceReset

/-- DEVICE_RESET_RELEASE (R106, R181): RESET_n rises. -/
def execDeviceResetRelease (s : State) : Out := .next { s with inReset := false }

end Sys2Proof.Machine
end

