-- ==== Sys2Proof/Machine/ValueCommands.lean ====
section
/-! DEFINITION. The meanings of the commands on values: PUBLISH, VIEW, RELEASE and REQUEST. Each is a write to COMMAND,
taken by the command unit (R171) and carried out by its owning block's `take…` operation. -/

namespace Sys2Proof.Machine

open Sys2Proof

/-- PUBLISH (R28 to R30). -/
def execPublish (p : Port) (n : Byte) (s : State) : Out :=
  cycle p (fun t => t.writeCommand p .publish n) s

/-- VIEW (R54 to R57). -/
def execView (p : Port) (n : Byte) (s : State) : Out :=
  cycle p (fun t => t.writeCommand p .view n) s

/-- RELEASE (R58). -/
def execRelease (p : Port) (n : Byte) (s : State) : Out :=
  cycle p (fun t => t.writeCommand p .release n) s

/-- REQUEST (R91 to R94). -/
def execRequest (p : Port) (n : Byte) (s : State) : Out :=
  cycle p (fun t => t.writeCommand p .request n) s

end Sys2Proof.Machine
end

