-- ==== Sys2Proof/Machine/Dispatch.lean ====
section
/-! DEFINITION. `exec`: the effect of each command and event on everything but the queue, one arm for each row of
spec/opcode_table.json. -/

namespace Sys2Proof.Machine

open Sys2Proof

def exec (i : Instr) (s : State) : Host.Outcome State Fault Refusal :=
  match i with
  | .publish p n => Sys2Proof.Machine.execPublish p n s
  | .view p n => Sys2Proof.Machine.execView p n s
  | .release p n => Sys2Proof.Machine.execRelease p n s
  | .request p n => Sys2Proof.Machine.execRequest p n s
  | .claimToken p n => Sys2Proof.Machine.execClaimToken p n s
  | .yieldToken p n => Sys2Proof.Machine.execYieldToken p n s
  | .configureSlot p n => Sys2Proof.Machine.execConfigureSlot p n s
  | .retireSlot p n => Sys2Proof.Machine.execRetireSlot p n s
  | .setHoldTimeout p n => Sys2Proof.Machine.execSetHoldTimeout p n s
  | .setTime p n => Sys2Proof.Machine.execSetTime p n s
  | .setRejoinPolicy p n => Sys2Proof.Machine.execSetRejoinPolicy p n s
  | .expel p n => Sys2Proof.Machine.execExpel p n s
  | .restart p n => Sys2Proof.Machine.execRestart p n s
  | .freeze p n => Sys2Proof.Machine.execFreeze p n s
  | .resume p n => Sys2Proof.Machine.execResume p n s
  | .step p n => Sys2Proof.Machine.execStep p n s
  | .inspect p n => Sys2Proof.Machine.execInspect p n s
  | .cancelHead p n => Sys2Proof.Machine.execCancelHead p n s
  | .armWatch p n => Sys2Proof.Machine.execArmWatch p n s
  | .disarmWatch p n => Sys2Proof.Machine.execDisarmWatch p n s
  | .readCapture p n => Sys2Proof.Machine.execReadCapture p n s
  | .rejoin p n => Sys2Proof.Machine.execRejoin p n s
  | .resetPort p n => Sys2Proof.Machine.execResetPort p n s
  | .undefinedCommand p code n => Sys2Proof.Machine.execUndefinedCommand p code n s
  | .registerWrite p off w => Sys2Proof.Machine.execRegisterWrite p off w s
  | .attentionEnableWrite p w => Sys2Proof.Machine.execAttentionEnableWrite p w s
  | .resultRead p => Sys2Proof.Machine.execResultRead p s
  | .timeLowRead p => Sys2Proof.Machine.execTimeLowRead p s
  | .noteTake p => Sys2Proof.Machine.execNoteTake p s
  | .deviceReset => Sys2Proof.Machine.execDeviceReset s
  | .deviceResetRelease => Sys2Proof.Machine.execDeviceResetRelease s
  | .portReset p => Sys2Proof.Machine.execPortReset p s
  | .resetPortDone p => Sys2Proof.Machine.execResetPortDone p s
  | .takeNextValue => Sys2Proof.Machine.execTakeNextValue s
  | .landingService => Sys2Proof.Machine.execLandingService s
  | .landingNotification => Sys2Proof.Machine.execLandingNotification s
  | .landingTimePart => Sys2Proof.Machine.execLandingTimePart s
  | .landingEnd => Sys2Proof.Machine.execLandingEnd s
  | .viewGrant p => Sys2Proof.Machine.execViewGrant p s
  | .holdExpiry p => Sys2Proof.Machine.execHoldExpiry p s
  | .deadlineExpiry k => Sys2Proof.Machine.execDeadlineExpiry k s
  | .freshnessExpiry k => Sys2Proof.Machine.execFreshnessExpiry k s
  | .quietIntervalEnd p => Sys2Proof.Machine.execQuietIntervalEnd p s
  | .detachment p upTo => Sys2Proof.Machine.execDetachment p upTo s
  | .restartBegin => Sys2Proof.Machine.execRestartBegin s
  | .restartEnd => Sys2Proof.Machine.execRestartEnd s
  | .timeBaseAdvance => Sys2Proof.Machine.execTimeBaseAdvance s

end Sys2Proof.Machine
end

