-- ==== Sys2Proof/Safety.lean ====
section
/-! DEFINITION. The laws of the exchange that the spec states over its whole life, as predicates of a state, and the terms in
which claims about one event are stated: the conditions under which a port's command reaches its block, and the changes of
state that many rules have in common, each written out as the fields it changes. -/

namespace Sys2Proof.Machine

open Sys2Proof

/-- The law of the score (R121, R122): it lies in 0–255, WARN stands for 96 or more, and it is 0 while the port is DETACHED or
REJOINING. -/
def State.ScoreLaw (s : State) : Prop :=
  ∀ p, (s.healthOf p).score ≤ Config.scoreMax ∧ (s.healthOf p).warn = warnOf (s.healthOf p).score ∧
    ((s.healthOf p).state.outside = true → (s.healthOf p).score = 0)

/-- The law of the Publication Queue (R32): at most 8 entries, at most 4 of them from any one port. -/
def State.PublicationLaw (s : State) : Prop :=
  s.queue.length ≤ Config.queueLimit ∧ ∀ p, s.entriesOf p ≤ Config.portLimit

/-- The law of one Notification Queue (R77): at most 15 ordinary notes, and then at most one LOST note, the last. -/
def NoteQueueLaw (q : List Note) : Prop :=
  ∃ ordinary : List Note, (∀ n ∈ ordinary, n.reason ≠ .lost) ∧ ordinary.length ≤ Config.ordinaryLimit ∧
    (q = ordinary ∨ ∃ l, l.reason = .lost ∧ q = ordinary ++ [l])

/-- The law of the Notification Queues (R77). -/
def State.NotesLaw (s : State) : Prop := ∀ p, NoteQueueLaw (s.noteUnit p).queue

/-- The law of identifiers (R12): no two slots that are not UNUSED carry the same one. -/
def State.IdentifierLaw (s : State) : Prop :=
  ∀ j k, (s.slot j).state ≠ .unused → (s.slot k).state ≠ .unused →
    (s.slot j).config.identifier = (s.slot k).config.identifier → j = k

/-- The law of requesters (R90): a slot's requester set never contains its owner, and its deadline is armed exactly while the
set is not empty. -/
def State.RequesterLaw (s : State) : Prop :=
  ∀ k, (s.slot k).requesters.has (s.slot k).config.owner = false ∧
    ((s.slot k).deadline.isSome = true ↔ (s.slot k).requesters.isEmpty = false)

/-- What the laws of the exchange state say together (R137, R144, R149, R150): a landing is in flight only in RUNNING, FREEZING or
STEPPING; an exchange is STEPPING exactly while it has a task; the freeze mark is set only in STEPPING; RESTARTING keeps the
restart mark and has no hold. Between events no report waits at the Health Unit (log entry 6). -/
def State.ExchangeLaw (s : State) : Prop :=
  (s.flight.isSome = true → s.exchange = .running ∨ s.exchange = .freezing ∨ s.exchange = .stepping) ∧
  (s.task.isSome = true ↔ s.exchange = .stepping) ∧
  (s.freezeMark = true → s.exchange = .stepping) ∧
  (s.exchange = .restarting → s.restartMark = true ∧ ∀ p, s.hold p = none) ∧
  s.reports = []

/-- Is the time `t` not behind the time base, compared with wrap-around (R108)? -/
def State.ahead (s : State) (t : Time) : Prop := (t - s.time).msb = false

/-- The law of timers (R108): the time base has not passed the expiry time of a hold, of the quiet interval of a REJOINING port, of
a deadline or of a freshness timer. -/
def State.TimerLaw (s : State) : Prop :=
  (∀ p h, s.hold p = some h → s.ahead h.expiry) ∧
  (∀ p e, (s.healthOf p).state = .rejoining → (s.healthOf p).quiet = some e → s.ahead e) ∧
  ∀ k d, (s.slot k).deadline = some d ∨ (s.slot k).freshness = some d → s.ahead d

/-- Is the slot OPEN or LIVE? -/
def SlotState.taking : SlotState → Bool
  | .opened | .live => true
  | .unused | .retiring => false

/-- What the exchange keeps with its slots (R8, R14, R16, R56): only an OPEN or LIVE slot has an entry, a pending value or a due
value, each kept under its own slot's number; a held slot, and one that a VIEW waits for, is not UNUSED; a port does not hold the
slot that its VIEW waits for. -/
def State.SlotLaw (s : State) : Prop :=
  (∀ o ∈ s.queue ++ s.due, (s.slot o.slot).state.taking = true) ∧
  (∀ k o, (s.slot k).parked = some o → o.slot = k ∧ (s.slot k).state.taking = true) ∧
  (∀ p k, s.holding p k = true → (s.slot k).state ≠ .unused) ∧
  (∀ p k, s.phaseOf p = some (.behindLanding k) → s.holding p k = false ∧ (s.slot k).state ≠ .unused)

/-- The law of holds and values (R44 to R46, R52): no landing is in progress on a held slot; a due value's slot is unheld and has
no pending value, and has no second due value; the ripe list holds exactly the unheld slots with a pending value, each once; ripe
values exist only while the exchange is FROZEN or STEPPING, and due values only while it is RUNNING or FREEZING. -/
def State.HoldLaw (s : State) : Prop :=
  s.ExchangeLaw ∧ s.SlotLaw ∧
  (∀ l, s.flight = some l → (s.holdSet l.offer.slot).isEmpty = true) ∧
  (∀ o ∈ s.due, (s.holdSet o.slot).isEmpty = true ∧ (s.slot o.slot).parked = none) ∧
  (s.due.map fun o => o.slot).Nodup ∧
  (∀ k, k ∈ s.ripe ↔ (s.holdSet k).isEmpty = true ∧ (s.slot k).parked.isSome = true) ∧
  s.ripe.Nodup ∧
  (s.ripe ≠ [] → s.exchange = .frozen ∨ s.exchange = .stepping) ∧
  (s.due ≠ [] → s.exchange = .running ∨ s.exchange = .freezing)

/-- Has the running detachment of `p` taken step `st`? -/
def State.tookStep (s : State) (p : Port) (st : DetachStep) : Prop :=
  ∃ next, s.detaching = some (p, next) ∧ stepPlace st < stepPlace next

/-- Is `p` outside the exchange as far as step `st` goes: DETACHED or REJOINING, or past that step of its detachment? -/
def State.clearOf (s : State) (p : Port) (st : DetachStep) : Prop :=
  (s.healthOf p).state.outside = true ∨ s.tookStep p st

/-- The detachments that run or wait are those of the ports whose marks are set, each once, and such a port is still ACTIVE or
DEGRADED (R124). -/
def State.MarkLaw (s : State) : Prop :=
  (∀ p, (∃ st, s.detaching = some (p, st)) ∨ p ∈ s.detachQueue.flatten ↔ (s.healthOf p).mark = true) ∧
  s.detachQueue.flatten.Nodup ∧
  (∀ p st, s.detaching = some (p, st) → p ∉ s.detachQueue.flatten) ∧
  (∀ p, (s.healthOf p).mark = true → (s.healthOf p).state.outside = false)

/-- The law of detached ports (R129, R142), with what each step of a detachment has cleared for good (R125, R126): no token, no
hold, no entry in the Publication Queue, no place in a requester set, no note, no place in an unread or missed set. A RESET_PORT
never waits; a port outside the exchange or with its mark set has no command BUSY but it or a REJOIN that waits through a restart. -/
def State.DetachedLaw (s : State) : Prop :=
  s.MarkLaw ∧
  ∀ p,
    (s.clearOf p .token → s.token ≠ some p) ∧
    (s.clearOf p .hold → s.hold p = none) ∧
    (s.clearOf p .publications → s.entriesOf p = 0) ∧
    (s.clearOf p .requests → (∀ k, (s.slot k).requesters.has p = false) ∧ s.lostOwners.has p = true) ∧
    (s.clearOf p .notes → (s.noteUnit p).queue = [] ∧ (s.noteUnit p).delivery = .closed ∧
      ∀ k, (s.slot k).unread.has p = false ∧ (s.slot k).missed.has p = false) ∧
    ∀ b, (s.port p).unit.busy = some b →
      (b.command = .resetPort → b.phase = .taken) ∧
      ((s.healthOf p).mark = true ∨ (s.healthOf p).state.outside = true →
        b.command = .resetPort ∨ (b.command = .rejoin ∧ b.phase = .afterRestart ∧ (s.healthOf p).mark = false))

/-! ### The terms of claims about one event -/

/-- Between events, with RESET_n high. -/
abbrev State.settled (s : State) : Prop := s.inReset = false ∧ s.reports = []

/-- Between events, with RESET_n and port `p`'s PxRST_n high: the Port Unit takes bus cycles (R168, R181, R182). -/
abbrev State.listens (s : State) (p : Port) : Prop := s.settled ∧ s.lineLow.has p = false

/-- Port `p`'s command unit is IDLE and passes a command on to its block: the Port Unit takes bus cycles, the port is ACTIVE or
DEGRADED, its detaching mark is clear and the exchange is not RESTARTING (R171). -/
abbrev State.ready (s : State) (p : Port) : Prop :=
  s.settled ∧ (s.port p).unit.busy = none ∧ s.inside p = true ∧ (s.healthOf p).mark = false ∧ s.exchange ≠ .restarting ∧
    s.lineLow.has p = false

/-- The state with port `p`'s command answered: the result posted, the unit IDLE, its done flag set (R172). -/
def State.answered (s : State) (p : Port) (r : Result) : State :=
  let u := s.port p
  { s with ports := s.ports.set p { u with unit := { u.unit with busy := none, result := r, done := true } } }

/-- The state with port `p`'s command `c` taken and not finished: the unit BUSY, its done flag clear (R171). -/
def State.busyWith (s : State) (p : Port) (c : Command) (n : Byte) (ph : Phase) : State :=
  let u := s.port p
  { s with ports := s.ports.set p { u with unit := { u.unit with busy := some ⟨c, n, ph⟩, done := false } } }

/-- The state with the score of `p`, ACTIVE or DEGRADED, raised by `n` to at most 255 (R119, R121). -/
def State.fined (s : State) (p : Port) (n : Nat) : State :=
  let h := s.healthOf p
  let g := { h with score := h.score + n, warn := decide (96 ≤ h.score + n),
                    state := if 128 ≤ h.score + n then .degraded else h.state }
  { s with health := s.health.set p g }

/-- The state with the score of `p`, ACTIVE or DEGRADED, lowered by a credit of 1 (R120, R121). -/
def State.rewarded (s : State) (p : Port) : State :=
  let h := s.healthOf p
  let g := { h with score := h.score - 1, warn := decide (96 ≤ h.score - 1),
                    state := if h.state = .degraded ∧ h.score - 1 ≤ 64 then .active else h.state }
  { s with health := s.health.set p g }

/-- The state with the quiet intervals of the REJOINING port `p` begun again (R133). -/
def State.recounted (s : State) (p : Port) : State :=
  { s with health := s.health.set p { s.healthOf p with rejoinCount := 0, quiet := some (s.time + 256#32) } }

/-- Can port `p` take a penalty of `n` without being detached (R119)? -/
abbrev State.bears (s : State) (p : Port) (n : Nat) : Prop := (s.healthOf p).score + n ≤ 255

/-- Does a port other than `p` hold slot `k`? -/
def State.heldByOther (s : State) (p : Port) (k : SlotIx) : Bool := Port.all.any fun q => q != p && s.holding q k

/-- Has the end of port `p`'s hold no consequence at another block: `p` holds nothing, or others hold the slot too, or the slot has
no pending value and is not RETIRING (R58)? -/
def State.endsQuietly (s : State) (p : Port) : Bool :=
  match s.hold p with
  | none => true
  | some h => s.heldByOther p h.slot || ((s.slot h.slot).parked.isNone && (s.slot h.slot).state != .retiring)

/-- Is a note that coalesces with none placed in `p`'s queue (R75)? -/
def State.roomFor (s : State) (p : Port) : Bool :=
  (s.noteUnit p).delivery == .delivering && (s.noteUnit p).queue.all (fun n => n.reason != .lost) &&
    decide ((s.noteUnit p).queue.length < 15)

/-- The state with note `n p` at the tail of the queue of every port `p` of a set. -/
def State.noted (s : State) (ps : Port → Bool) (n : Port → Note) : State :=
  { s with notes := PerPort.ofFn fun p =>
      if ps p then { s.noteUnit p with queue := (s.noteUnit p).queue ++ [n p] } else s.noteUnit p }

/-- The state with port `p` holding a view of slot `k`: the hold record with its expiry time, the view state of R19, `p` out of the
unread and missed sets (R54, R55), a due value back with the slot and a ripe one off the ripe list (R44, R45). -/
def State.withView (s : State) (p : Port) (k : SlotIx) : State :=
  let r := s.slot k
  let shown : ViewState :=
    if r.state = .opened then .none else if r.missed.has p then .missed else if r.unread.has p then .new else .seen
  { s with
    holds := s.holds.set p
      (some { slot := k, expiry := s.time + 16#32 * s.holdTimeout.setWidth 32, viewState := shown,
              identifier := r.config.identifier })
    slots := s.slots.set k
      { r with unread := r.unread.erase p, missed := r.missed.erase p,
               parked := (s.due.find? fun o => o.slot == k).or r.parked }
    due := s.due.filter fun o => o.slot != k
    ripe := s.ripe.filter fun j => j != k }

/-- Does port `q`'s command wait for the exchange to become FROZEN, or for the end of a step or a drain? -/
def State.waitsForFreeze (s : State) (q : Port) : Bool := s.inHand q .freeze || s.inHand q .step || s.inHand q .resume

/-- The state with every command of the ports of a set finished with DONE. -/
def State.finished (s : State) (ps : Port → Bool) : State :=
  { s with ports := PerPort.ofFn fun q =>
      if ps q then { s.port q with unit := { (s.port q).unit with busy := none, result := .done, done := true } }
      else s.port q }

/-- The state FROZEN, with no value on the due list to go back to its slot: the freeze, step and drain over, and the commands that
waited for it finished (R150, R151, R153, R155). -/
def State.frozenNow (s : State) : State :=
  { s with exchange := .frozen, freezeMark := false, task := none }.finished s.waitsForFreeze

/-- A note of reason `r` about slot `k` under the identifier `i`, as it is appended now: sequence number 0, every flag clear (R73,
R74). -/
def State.noteAbout (s : State) (r : Reason) (k : SlotIx) (i : Ident) : Note :=
  { reason := r, slot := k, identifier := i, sequence := 0#16, reply := false, coalesced := false, isSealed := false,
    stamp := s.time.extractLsb' 0 16 }

/-- Is a RETIRED note about slot `k` placed in the queue of every subscriber (R75, R76)? -/
def State.roomToRetire (s : State) (k : SlotIx) : Prop :=
  ∀ q, s.subscribes k q = true → s.roomFor q = true ∧ ∀ m ∈ (s.noteUnit q).queue, m.reason = .retired → m.slot ≠ k

/-- The notes with every one that names slot `k` sealed (R76). -/
def sealedFor (k : SlotIx) (q : List Note) : List Note := q.map fun n => if n.slot = k then { n with isSealed := true } else n

/-- The state with slot `k`'s retirement completed, with room for its notes: a RETIRED note to each subscriber, every note that names
the slot sealed, the record cleared, and VIEWs that wait for the slot left to be answered RETIRING (R16, R56, R76). -/
def State.retired (s : State) (k : SlotIx) : State :=
  { s with
    notes := PerPort.ofFn fun q =>
      let m := s.noteUnit q
      let told := if s.subscribes k q then m.queue ++ [s.noteAbout .retired k (s.slot k).config.identifier] else m.queue
      { m with queue := sealedFor k told }
    slots := s.slots.set k
      { config := { identifier := 0#12, owner := .a, kind := .state, answer := .ownerAnswers, maxLength := 1#4,
                    freshnessLimit := 0#12, requestDeadline := 0#8 },
        state := .unused,
        value := { length := 0#4, data := Table.fill 8 0#16, sequence := 0#16, stamp := 0#32, echo := false },
        stale := false, orphaned := false, unread := PortSet.empty, missed := PortSet.empty,
        requesters := PortSet.empty, parked := none, deadline := none, freshness := none }
    ports := PerPort.ofFn fun q =>
      let u := s.port q
      if s.phaseOf q = some (.behindLanding k) then
        { u with unit := { u.unit with busy := u.unit.busy.map fun b => { b with phase := .slotGone } } }
      else u }

/-- Does the watch, armed, catch an act of this kind, slot and source (R162)? -/
def State.catches (s : State) (kind : ActKind) (k : SlotIx) (src : Source) : Prop :=
  s.watch.armed = true ∧
  (match kind with
    | .landing => s.watch.onLanding
    | .view => s.watch.onView
    | .request => s.watch.onRequest
    | .config => s.watch.onConfig) = true ∧
  (s.watch.slot = none ∨ s.watch.slot = some k) ∧ (s.watch.source = none ∨ s.watch.source = some src)

/-- The state with a match recorded: counted, up to 65535, and entered at the tail of the capture list, which keeps the last 8 (R163).
An act that is already done takes FREEZE_BEFORE as FREEZE_AFTER (R164). -/
def State.recorded (s : State) (kind : ActKind) (detail : Bool) (k : SlotIx) (src : Source) : State :=
  let w := s.watch
  let count := if w.matchCount = 65535#16 then 65535#16 else w.matchCount + 1#16
  let entry : Capture :=
    { kind := kind, detail := detail, slot := k, source := src, identifier := (s.slot k).config.identifier,
      sequence := (s.slot k).value.sequence, stamp := s.time, matchNumber := count,
      action := if kind ≠ .landing ∧ w.action = .freezeBefore then .freezeAfter else w.action }
  { s with watch := { w with matchCount := count, captures := (w.captures ++ [entry]).drop (w.captures.length + 1 - 8) } }

/-- The state after a freeze request, with nothing on the due list, by the exchange state (R164). -/
def State.freezeAsked (s : State) : State :=
  match s.exchange with
  | .running => if s.flight.isSome then { s with exchange := .freezing } else s.frozenNow
  | .freezing | .frozen | .restarting => s
  | .stepping =>
    match s.task, s.flight with
    | some (.drain _), none => s.frozenNow
    | some (.drain _), some _ | some (.step _), _ | none, _ => { s with freezeMark := true }

/-- The state after a match of a VIEW, REQUEST or CONFIG act: recorded, and the action applied (R164). -/
def State.noticed (s : State) (kind : ActKind) (detail : Bool) (k : SlotIx) (src : Source) : State :=
  if s.watch.action = .record then s.recorded kind detail k src else (s.recorded kind detail k src).freezeAsked

/-! ### What the words of a window show -/

/-- The number in bits `lo` to `lo + n - 1` of a word. -/
def bits (w : Word) (lo n : Nat) : Nat := w.toNat / 2 ^ lo % 2 ^ n

/-- RESULT, PORT STATUS and HEALTH SCORE (R175, R177). -/
def State.StatusWords (s : State) (p : Port) : Prop :=
  let u := (s.port p).unit
  let h := s.healthOf p
  let result := s.windowRead p 0x04#6
  let status := s.windowRead p 0x05#6
  let score := s.windowRead p 0x06#6
  (bits result 15 1 = u.busy.isSome.toNat ∧ bits result 14 1 = u.done.toNat ∧ bits result 13 1 = u.overrun.toNat ∧
    bits result 8 5 = 0 ∧
    [Result.done, .badCommand, .badArgument, .noSlot, .retiring, .notOwner, .badLength, .queueFull, .portLimit, .notHeld,
      .ownSlot, .notRequestable, .orphaned, .noValue, .degraded, .detached, .noToken, .tokenHeld, .slotInUse, .idInUse,
      .notFrozen, .nothingQueued, .notDetached][bits result 0 8]? = some u.result) ∧
  ([HealthState.active, .degraded, .detached, .rejoining][bits status 0 2]? = some h.state ∧
    bits status 2 1 = h.warn.toNat ∧ [DetachCause.none, .score, .expelled][bits status 3 2]? = some h.cause ∧
    (bits status 5 1 = 1 ↔ s.token = some p) ∧
    [Exchange.running, .freezing, .frozen, .stepping, .restarting][bits status 6 3]? = some s.exchange ∧
    bits status 9 1 = u.overrun.toNat ∧
    ((s.noteUnit p).queue.length ≤ 16 → bits status 10 5 = (s.noteUnit p).queue.length) ∧ bits status 15 1 = 0) ∧
  (h.score ≤ 255 → bits score 0 8 = h.score) ∧
  (h.state = .rejoining → h.rejoinCount < 16 → bits score 8 4 = h.rejoinCount) ∧
  (h.state ≠ .rejoining → bits score 8 4 = 0) ∧ bits score 12 4 = 0

/-- The view window: all 0 while the port holds nothing, and otherwise the record of the slot held, with the view state and the
identifier captured (R63, R64, R178). -/
def State.ViewWords (s : State) (p : Port) : Prop :=
  (s.hold p = none → ∀ off : BitVec 6, 0x12 ≤ off.toNat → off.toNat ≤ 0x1F → s.windowRead p off = 0#16) ∧
  ∀ h, s.hold p = some h →
    let r := s.slot h.slot
    let header := s.windowRead p 0x12#6
    ([none, some ViewState.none, some .new, some .missed, some .seen][bits header 0 3]? = some (some h.viewState) ∧
      [SlotState.unused, .opened, .live, .retiring][bits header 3 2]? = some r.state ∧
      (bits header 5 1 = 1 ↔ r.config.kind = .event) ∧ bits header 6 4 = r.value.length.toNat ∧
      bits header 10 1 = r.stale.toNat ∧ bits header 11 1 = r.orphaned.toNat ∧
      (bits header 12 1 = 1 ↔ (s.healthOf r.config.owner).state = .degraded) ∧
      bits header 13 1 = r.value.echo.toNat ∧ bits header 14 2 = 0) ∧
    (s.windowRead p 0x13#6).toNat = h.identifier.toNat ∧ s.windowRead p 0x14#6 = r.value.sequence ∧
    s.windowRead p 0x16#6 ++ s.windowRead p 0x15#6 = r.value.stamp ∧
    (∀ i : Fin 8, s.windowRead p (BitVec.ofNat 6 (0x17 + i.val)) = r.value.data.get i) ∧
    (s.windowRead p 0x1F#6).toNat = h.slot.val

/-- NOTE TAKE before its side effect, the words of the note latch, and NOTE COUNT (R79, R81, R178). -/
def State.NoteWords (s : State) (p : Port) : Prop :=
  let q := (s.noteUnit p).queue
  let take := s.windowRead p 0x20#6
  (q = [] → take = 0#16) ∧
  (∀ n rest, q = n :: rest →
    [none, some Reason.newValue, some .stale, some .request, some .requestTimeout, some .holdExpired, some .dropped,
      some .retired, some .orphaned, some .lost][bits take 12 4]? = some (some n.reason) ∧
    bits take 7 5 = 0 ∧ bits take 0 7 = n.slot.val) ∧
  ((s.port p).latch = none →
    s.windowRead p 0x21#6 = 0#16 ∧ s.windowRead p 0x22#6 = 0#16 ∧ s.windowRead p 0x23#6 = 0#16) ∧
  (∀ n, (s.port p).latch = some n →
    let w := s.windowRead p 0x21#6
    bits w 0 12 = n.identifier.toNat ∧ bits w 12 1 = n.reply.toNat ∧ bits w 13 1 = n.coalesced.toNat ∧ bits w 14 2 = 0 ∧
      s.windowRead p 0x22#6 = n.sequence ∧ s.windowRead p 0x23#6 = n.stamp) ∧
  (q.length ≤ 16 → (s.windowRead p 0x24#6).toNat = q.length)

/-- The maintenance window (R156, R157, R166, R179). -/
def State.MaintenanceWords (s : State) (p : Port) : Prop :=
  let sources : List Source := [.port .a, .port .b, .port .c, .port .d, .exchange]
  let w0 := s.windowRead p 0x38#6
  let w1 := s.windowRead p 0x39#6
  ((s.port p).maintenance = .none → ∀ off : BitVec 6, 0x38 ≤ off.toNat → s.windowRead p off = 0#16) ∧
  (∀ r, (s.port p).maintenance = .inspect r → r.queueCount ≤ 8 → r.ripeCount ≤ 96 →
    bits w0 0 2 = 1 ∧ bits w0 2 3 = r.position.toNat ∧ bits w0 5 4 = r.queueCount ∧ bits w0 9 1 = r.snapshot.toNat ∧
    bits w0 10 1 = r.passed.toNat ∧ bits w0 11 1 = 0 ∧ sources[bits w0 12 3]? = some r.source ∧ bits w0 15 1 = 0 ∧
    bits w1 0 7 = r.slot.val ∧ bits w1 7 1 = 0 ∧ bits w1 8 4 = r.length.toNat ∧ bits w1 12 4 = 0 ∧
    s.windowRead p 0x3A#6 = r.word0 ∧ s.windowRead p 0x3C#6 ++ s.windowRead p 0x3B#6 = r.stamp ∧
    (s.windowRead p 0x3D#6).toNat = r.ripeCount ∧ s.windowRead p 0x3E#6 = 0#16 ∧ s.windowRead p 0x3F#6 = 0#16) ∧
  ∀ r, (s.port p).maintenance = .capture r → r.present ≤ 8 →
    (bits w0 0 2 = 2 ∧ bits w0 2 3 = r.index.toNat ∧ bits w0 5 4 = r.present ∧ bits w0 9 1 = r.armed.toNat ∧
      s.windowRead p 0x3F#6 = r.matchCount) ∧
    (r.entry = none → bits w0 10 6 = 0 ∧
      ∀ off : BitVec 6, 0x39 ≤ off.toNat → off.toNat ≤ 0x3E → s.windowRead p off = 0#16) ∧
    ∀ e, r.entry = some e →
      [none, some ActKind.landing, some .view, some .request, some .config][bits w0 10 3]? = some (some e.kind) ∧
      bits w0 13 1 = e.detail.toNat ∧
      [WatchAction.record, .freezeAfter, .freezeBefore][bits w0 14 2]? = some e.action ∧
      bits w1 0 7 = e.slot.val ∧ bits w1 7 1 = 0 ∧ sources[bits w1 8 3]? = some e.source ∧ bits w1 11 5 = 0 ∧
      (s.windowRead p 0x3A#6).toNat = e.identifier.toNat ∧ s.windowRead p 0x3B#6 = e.sequence ∧
      s.windowRead p 0x3D#6 ++ s.windowRead p 0x3C#6 = e.stamp ∧ s.windowRead p 0x3E#6 = e.matchNumber

/-- The commands that need the token (R143). -/
def tokenCommands : List (Port → Byte → Instr) :=
  [.configureSlot, .retireSlot, .setHoldTimeout, .setTime, .setRejoinPolicy, .expel, .restart, .freeze, .resume, .step, .inspect,
   .cancelHead, .armWatch, .disarmWatch, .readCapture]

end Sys2Proof.Machine
end

