-- ==== Sys2Proof/WellFormed.lean ====
section
/-! DEFINITION. Which terms of `Instr` stand for an event of their own row. Every other operand is bounded by its type
(a port, a slot number below 96, a byte, a word). `exec` gives the terms refused here a meaning too: the one that
the same bus cycle has under its proper row (R169, R171). -/

namespace Sys2Proof

/-- The offsets of the stored words that REGISTER_WRITE writes: ARG0–ARG2, COMPOSE LENGTH, COMPOSE DATA 0–7 and the
filter words (R169, R170). ATTENTION ENABLE, at 0x25, has a row of its own. -/
def storedOffset (off : BitVec 6) : Bool :=
  let n := off.toNat
  (0x01 ≤ n && n ≤ 0x03) || (0x09 ≤ n && n ≤ 0x11) || (0x28 ≤ n && n ≤ 0x37)

/-- Is the term an event of its row? -/
def Instr.wellFormed : Instr → Bool
  | .undefinedCommand _ code _ => (Command.ofCode code).isNone
  | .registerWrite _ off _ => storedOffset off
  | .publish _ _ | .view _ _ | .release _ _ | .request _ _ | .claimToken _ _ | .yieldToken _ _ => true
  | .configureSlot _ _ | .retireSlot _ _ | .setHoldTimeout _ _ | .setTime _ _ | .setRejoinPolicy _ _ => true
  | .expel _ _ | .restart _ _ | .freeze _ _ | .resume _ _ | .step _ _ | .inspect _ _ | .cancelHead _ _ => true
  | .armWatch _ _ | .disarmWatch _ _ | .readCapture _ _ | .rejoin _ _ | .resetPort _ _ => true
  | .attentionEnableWrite _ _ | .resultRead _ | .timeLowRead _ | .noteTake _ => true
  | .deviceReset | .deviceResetRelease | .portReset _ | .resetPortDone _ => true
  | .takeNextValue | .landingService | .landingNotification | .landingTimePart | .landingEnd => true
  | .viewGrant _ | .holdExpiry _ | .deadlineExpiry _ | .freshnessExpiry _ | .quietIntervalEnd _ => true
  | .detachment _ _ | .restartBegin | .restartEnd | .timeBaseAdvance => true

end Sys2Proof
end

