-- ==== Sys2Proof/Certificates/Slice0/Obligations.lean ====
section
/-! DEFINITION. The statements about the WX496. A next state is written out as the fields that change, or given by what it holds and
what it leaves alone. The terms (`ready`, `answered`, `fined`, …) are those of Sys2Proof/Safety.lean. -/

open Sys2Proof Sys2Proof.Machine

/-! ### The machine -/

/-- A step runs the command at the front of the queue with the queue's rest, and idles on an empty queue. The queue, and idling, are the
model's choice (log entry 1). -/
def Obligations.StepRunsTheFrontOfTheQueue : Prop :=
  (∀ (c : Instr) (rest : List Instr) (s : State),
    step { s with pending := c :: rest } = exec c { s with pending := rest }) ∧
  ∀ s : State, s.pending = [] → step s = .next s

/-- Device reset leaves what R23, R50, R60, R67, R88, R104, R106, R117, R137, R159, R170 and R180 give, and the laws of the exchange
hold there. -/
def Obligations.ResetState : Prop :=
  let s := State.reset
  (∀ k, s.slot k =
    { config := { identifier := 0#12, owner := .a, kind := .state, answer := .ownerAnswers, maxLength := 1#4,
                  freshnessLimit := 0#12, requestDeadline := 0#8 },
      state := .unused, value := { length := 0#4, data := Table.fill 8 0#16, sequence := 0#16, stamp := 0#32, echo := false },
      stale := false, orphaned := false, unread := PortSet.empty, missed := PortSet.empty, requesters := PortSet.empty,
      parked := none, deadline := none, freshness := none }) ∧
  s.queue = [] ∧ s.due = [] ∧ s.ripe = [] ∧ s.flight = none ∧ s.holdTimeout = 64#8 ∧ s.lostOwners = PortSet.empty ∧
  s.time = 0#32 ∧ s.prescaler = 0#4 ∧ s.timeRuns = true ∧
  s.token = none ∧ s.exchange = .running ∧ s.restartMark = false ∧ s.freezeMark = false ∧
  (s.watch.armed = false ∧ s.watch.slot = none ∧ s.watch.source = none ∧ s.watch.onLanding = false ∧ s.watch.onView = false ∧
    s.watch.onRequest = false ∧ s.watch.onConfig = false ∧ s.watch.action = .record ∧ s.watch.captures = [] ∧
    s.watch.matchCount = 0#16) ∧
  (∀ p, s.hold p = none ∧ (s.noteUnit p).queue = [] ∧ (s.noteUnit p).delivery = .delivering ∧
    (∀ i, (s.noteUnit p).filters.get i = { identifier := 0#12, mask := 0#12, enabled := false }) ∧
    s.healthOf p = { state := .active, score := 0, warn := false, cause := .none, mark := false, rejoinCount := 0,
                     quiet := none, autoRejoin := false } ∧
    (∀ off : BitVec 6, s.windowRead p off = 0#16) ∧ s.attention p = false) ∧
  s.ScoreLaw ∧ s.PublicationLaw ∧ s.NotesLaw ∧ s.IdentifierLaw ∧ s.RequesterLaw ∧ s.HoldLaw ∧ s.DetachedLaw ∧ s.TimerLaw

/-- The word written to COMMAND for an event spells that event, and every word of COMMAND spells exactly one event, which has that word
(R176). -/
def Obligations.CommandWordsRoundTrip : Prop :=
  (∀ (i : Instr) (p : Port) (w : Word), i.wellFormed = true → encodeCommandWord i = some (p, w) → decodeCommandWord p w = i) ∧
  ∀ (p : Port) (w : Word),
    encodeCommandWord (decodeCommandWord p w) = some (p, w) ∧ (decodeCommandWord p w).wellFormed = true

/-- A write to COMMAND, at offset 0 of the window, is the event that its word spells, and so is an UNDEFINED_COMMAND with any code and
slot number (R169, R171, R176). That a term which is no event of its own row has the meaning of the same bus cycle is the model's choice
(log entry 19). -/
def Obligations.WriteToCommandIsItsEvent : Prop :=
  ∀ (p : Port) (w : Word) (s : State),
    exec (.registerWrite p 0#6 w) s = exec (decodeCommandWord p w) s ∧
    exec (.undefinedCommand p (commandCode w) (commandSlot w)) s = exec (decodeCommandWord p w) s

/-! ### The laws, kept by every step -/

/-- The law of the score is kept by every step (R122). -/
def Obligations.StepKeepsScoreLaw : Prop := ∀ s t : State, s.ScoreLaw → step s = .next t → t.ScoreLaw

/-- The limits of the Publication Queue, and those of the Notification Queues with the place of LOST, are kept by every step (R32, R77).
-/
def Obligations.StepKeepsQueueLaws : Prop :=
  ∀ s t : State, step s = .next t → (s.PublicationLaw → t.PublicationLaw) ∧ (s.NotesLaw → t.NotesLaw)

/-- No step lets two slots that are not UNUSED carry the same identifier (R12). -/
def Obligations.StepKeepsIdentifierLaw : Prop := ∀ s t : State, s.IdentifierLaw → step s = .next t → t.IdentifierLaw

/-- Every step keeps a slot's owner out of its requester set, and the deadline armed exactly while the set is not empty (R90). -/
def Obligations.StepKeepsRequesterLaw : Prop := ∀ s t : State, s.RequesterLaw → step s = .next t → t.RequesterLaw

/-- The law of holds, values and exchange states is kept by every step: State.HoldLaw with State.ExchangeLaw and State.SlotLaw (R8, R14,
R16, R44, R45, R46, R52, R56, R137, R144, R145, R149, R150). That no report waits between events, which is part of it, is the model's
reading (log entry 6). -/
def Obligations.StepKeepsHoldLaw : Prop := ∀ s t : State, s.HoldLaw → step s = .next t → t.HoldLaw

/-- The law of detached ports, and that of the token, are kept by every step (R129, R142). -/
def Obligations.StepKeepsDetachedLaw : Prop := ∀ s t : State, s.DetachedLaw → step s = .next t → t.DetachedLaw

/-- No event changes the value part of a slot under a port that holds the slot before it and after it (R3, R46, R57). -/
def Obligations.ValueStaysUnderItsHolder : Prop :=
  ∀ (c : Instr) (s t : State) (p : Port) (k : SlotIx), s.HoldLaw → exec c s = .next t → s.holding p k = true →
    t.holding p k = true → (t.slot k).value = (s.slot k).value

/-! ### Publication -/

/-- PUBLISH that passes its checks appends an entry at the tail of the Publication Queue, earns a credit of 1 and completes with DONE
(R29, R30, R33). Nothing else changes. The number nextOrder is the model's own (log entry 2). -/
def Obligations.PublishQueuesTheValue : Prop :=
  ∀ (s : State) (p : Port) (n : Byte) (k : SlotIx), s.ready p → k.val = n.toNat →
    ((s.slot k).state = .opened ∨ (s.slot k).state = .live) → (s.slot k).config.owner = p →
    (s.port p).composeLength.toNat ≤ (s.slot k).config.maxLength.toNat →
    ((s.port p).composeLength ≠ 0#16 ∨ (s.slot k).config.kind = .event) → s.entriesOf p < 4 → s.queue.length < 8 →
    ∃ o : Offer,
      exec (.publish p n) s =
        .next { (s.answered p .done).rewarded p with queue := s.queue ++ [o], nextOrder := s.nextOrder + 1 } ∧
      o.source = .port p ∧ o.slot = k ∧ o.length.toNat = (s.port p).composeLength.toNat ∧
      (∀ i : Fin 8, o.data.get i =
        if i.val < (s.port p).composeLength.toNat then (s.port p).composeData.get i else 0#16) ∧
      o.stamp = s.time ∧ (o.snapshot = true ↔ ∃ q, (s.slot k).requesters.has q = true) ∧ o.passed = false

/-- The checks of PUBLISH, in their order: the first that fails gives the result, with a penalty of 4 where the refusal is penalised,
and nothing else changes; a PUBLISH that fails none is accepted (R8, R29). -/
def Obligations.PublishRefusals : Prop :=
  ∀ (s : State) (p : Port) (n : Byte), s.ready p → s.bears p 4 →
    (95 < n.toNat → exec (.publish p n) s = .next ((s.answered p .noSlot).fined p 4)) ∧
    ∀ k : SlotIx, k.val = n.toNat →
      let r := s.slot k
      let len := (s.port p).composeLength
      (r.state = .unused → exec (.publish p n) s = .next ((s.answered p .noSlot).fined p 4)) ∧
      (r.state = .retiring → exec (.publish p n) s = .next (s.answered p .retiring)) ∧
      (r.state = .opened ∨ r.state = .live →
        (r.config.owner ≠ p → exec (.publish p n) s = .next ((s.answered p .notOwner).fined p 4)) ∧
        (r.config.owner = p →
          (r.config.maxLength.toNat < len.toNat ∨ (len = 0#16 ∧ r.config.kind = .state) →
            exec (.publish p n) s = .next ((s.answered p .badLength).fined p 4)) ∧
          (len.toNat ≤ r.config.maxLength.toNat → (len ≠ 0#16 ∨ r.config.kind = .event) →
            (4 ≤ s.entriesOf p → exec (.publish p n) s = .next (s.answered p .portLimit)) ∧
            (s.entriesOf p < 4 → 8 ≤ s.queue.length → exec (.publish p n) s = .next (s.answered p .queueFull)) ∧
            (s.entriesOf p < 4 → s.queue.length < 8 →
              ∃ t, exec (.publish p n) s = .next t ∧ t.queue.length = s.queue.length + 1 ∧ (t.port p).unit.busy = none ∧
                (t.port p).unit.result = .done))))

/-- The Commit Unit takes the next value for a landing: the earliest due value, or else the head entry of an unheld slot. The value
leaves its place, is written into the slot and is the in-flight landing. With a landing in flight, with the restart mark set, or outside
RUNNING and STEPPING, it takes none (R34, R35, R37, R44). That an event which may not take place leaves the state as it is, is the
model's choice (log entry 4). -/
def Obligations.NextValueLands : Prop :=
  ∀ s : State, s.settled →
    (s.exchange = .running → s.flight = none → s.restartMark = false →
      (∀ o rest, s.due = o :: rest → (o.passed = true ∨ s.watch.hits .landing o.slot o.source = false) →
        exec .takeNextValue s = .next ({ s with due := rest }.beginLanding o)) ∧
      (∀ o rest, s.due = [] → s.queue = o :: rest → (∀ q, s.holding q o.slot = false) →
        (o.passed = true ∨ s.watch.hits .landing o.slot o.source = false) →
        exec .takeNextValue s = .next ({ s with queue := rest }.beginLanding o)) ∧
      (s.due = [] → s.queue = [] → exec .takeNextValue s = .next s)) ∧
    (s.flight.isSome = true ∨ s.restartMark = true ∨ s.exchange = .freezing ∨ s.exchange = .frozen ∨ s.exchange = .restarting →
      exec .takeNextValue s = .next s)

/-- What the beginning of a landing writes: the value is the in-flight landing, no part of it done; its slot has the next sequence
number (65535 is followed by 1), the acceptance stamp, and the value's length and words with 0 beyond the length, or for an echo the
slot's own; an OPEN slot becomes LIVE. Nothing else changes (R3, R18, R37, R38). -/
def Obligations.LandingWritesTheSlot : Prop :=
  ∀ (s : State) (o : Offer), ∃ (d : Table 8 Word),
    let r := s.slot o.slot
    s.beginLanding o =
      { s with
        slots := s.slots.set o.slot
          { r with
            state := if r.state = .opened then .live else r.state
            value := { length := if o.source = .exchange then r.value.length else o.length, data := d,
                       sequence := if r.value.sequence = 65535#16 then 1#16 else r.value.sequence + 1#16,
                       stamp := o.stamp, echo := decide (o.source = .exchange) } }
        flight := some { offer := o, served := none, notified := false, timed := false } } ∧
    ∀ i : Fin 8, d.get i =
      if o.source = .exchange then r.value.data.get i else if i.val < o.length.toNat then o.data.get i else 0#16

/-- The head entry of a held slot is parked: it is the slot's pending value, and a value it supersedes leaves every subscriber of the
slot in the missed set. Nothing else changes (R35, R41, R42). -/
def Obligations.HeldValueIsParked : Prop :=
  ∀ (s : State) (o : Offer) (rest : List Offer), s.settled → s.exchange = .running → s.flight = none →
    s.restartMark = false → s.due = [] → s.queue = o :: rest → (∃ q, s.holding q o.slot = true) →
    ∃ m : PortSet,
      exec .takeNextValue s = .next
        { s with queue := rest
                 slots := s.slots.set o.slot { s.slot o.slot with parked := some o, missed := m } } ∧
      ∀ q, m.has q = true ↔ (s.slot o.slot).missed.has q = true ∨
        ((s.slot o.slot).parked.isSome = true ∧ s.subscribes o.slot q = true)

/-- In STEPPING the Commit Unit takes the item it is directed to: a ripe value, the chosen head entry to land or to park, or the next
slot of a drain. A value parked over a pending one supersedes it, and the subscribers have missed a value (R42). A step whose item is
gone ends in FROZEN. A drain whose value is gone goes on to the next slot of the ripe list, and ends in RUNNING with none left, or in
FROZEN where a freeze is called for (R153, R155). That a drain takes the slot it was directed to also where a slot ahead of it has
joined the ripe list since is the model's reading, for R155 speaks of the first slot alone (log entry 23), and so is that a step lands
the head entry it was directed to also where an earlier value of the same slot has become ripe since (R35, log entry 26). -/
def Obligations.StepOrDrainTakesItsItem : Prop :=
  ∀ s : State, s.settled → s.exchange = .stepping → s.flight = none → s.restartMark = false → s.due = [] →
    (∀ k o, (s.task = some (.step (.ripe k)) ∨ s.task = some (.drain k)) → k ∈ s.ripe → (s.slot k).parked = some o →
      o.slot = k → (o.passed = true ∨ s.watch.hits .landing k o.source = false) →
      exec .takeNextValue s = .next
        ({ s with slots := s.slots.set k { s.slot k with parked := none }
                  ripe := s.ripe.filter fun j => j != k }.beginLanding o)) ∧
    (∀ o rest, s.task = some (.step (.head o.order)) → s.queue = o :: rest → (∀ q, s.holding q o.slot = false) →
      (o.passed = true ∨ s.watch.hits .landing o.slot o.source = false) →
      exec .takeNextValue s = .next ({ s with queue := rest }.beginLanding o)) ∧
    (∀ o rest, s.task = some (.step (.head o.order)) → s.queue = o :: rest → (∃ q, s.holding q o.slot = true) →
      (s.slot o.slot).parked = none →
      exec .takeNextValue s = .next
        { s with queue := rest
                 slots := s.slots.set o.slot { s.slot o.slot with parked := some o } }.frozenNow) ∧
    (∀ o rest, s.task = some (.step (.head o.order)) → s.queue = o :: rest → (∃ q, s.holding q o.slot = true) →
      (s.slot o.slot).parked.isSome = true →
      ∃ m : PortSet,
        exec .takeNextValue s = .next
          { s with queue := rest
                   slots := s.slots.set o.slot { s.slot o.slot with parked := some o, missed := m } }.frozenNow ∧
        ∀ q, m.has q = true ↔ (s.slot o.slot).missed.has q = true ∨ s.subscribes o.slot q = true) ∧
    (∀ k j js o, s.task = some (.drain k) → k ∉ s.ripe → s.freezeMark = false → s.ripe = j :: js →
      (s.slot j).parked = some o → o.slot = j → (o.passed = true ∨ s.watch.hits .landing j o.source = false) →
      exec .takeNextValue s = .next
        ({ s with task := some (.drain j)
                  slots := s.slots.set j { s.slot j with parked := none }
                  ripe := s.ripe.filter fun i => i != j }.beginLanding o)) ∧
    (∀ k, s.task = some (.drain k) → k ∉ s.ripe → s.freezeMark = true → exec .takeNextValue s = .next s.frozenNow) ∧
    (∀ k, s.task = some (.step (.ripe k)) → k ∉ s.ripe → exec .takeNextValue s = .next s.frozenNow) ∧
    (∀ n, s.task = some (.step (.head n)) → (∀ o rest, s.queue = o :: rest → o.order ≠ n) →
      exec .takeNextValue s = .next s.frozenNow) ∧
    (∀ k, s.task = some (.drain k) → s.ripe = [] → s.freezeMark = false →
      exec .takeNextValue s = .next ({ s with exchange := .running, task := none }.finished fun q => s.inHand q .resume))

/-! ### The parts and the end of a landing -/

/-- LANDING_SERVICE hands over the slot's requesters, empties the set and disarms the deadline. LANDING_TIME_PART clears STALE, and arms
the freshness timer of a slot that is not RETIRING and has a limit, of `limit` times 1000 µs. Each is done once (R97, R112). The second
time they do not take place (log entry 4). -/
def Obligations.LandingServiceAndTimePart : Prop :=
  ∀ (s : State) (l : Landing), s.settled → s.flight = some l →
    let k := l.offer.slot
    let r := s.slot k
    (l.served = none →
      exec .landingService s = .next
        { s with slots := s.slots.set k { r with requesters := PortSet.empty, deadline := none }
                 flight := some { l with served := some r.requesters } }) ∧
    (l.timed = false →
      exec .landingTimePart s = .next
        { s with
          slots := s.slots.set k
            { r with
              stale := false
              freshness := if r.state ≠ .retiring ∧ r.config.freshnessLimit ≠ 0#12 then
                  some (s.time + BitVec.ofNat 32 (r.config.freshnessLimit.toNat * 1000)) else r.freshness }
          flight := some { l with timed := true } }) ∧
    (l.served.isSome = true → exec .landingService s = .next s) ∧ (l.timed = true → exec .landingTimePart s = .next s)

/-- The Notification Unit's part of a landing: the ports still due to see the replaced value join the missed set, the unread set becomes
the subscribers and the served requesters, and each of these is appended one NEW_VALUE note, with REPLY for a served requester. Here the
notes are placed: every queue has room and no note of the slot to coalesce with (R71, R74). -/
def Obligations.LandingTellsItsPorts : Prop :=
  ∀ (s : State) (l : Landing) (served : PortSet), s.settled → s.flight = some l → l.served = some served →
    l.notified = false →
    let k := l.offer.slot
    let r := s.slot k
    let told := fun q => s.subscribes k q || served.has q
    (∀ q, told q = true → s.roomFor q = true ∧ ∀ m ∈ (s.noteUnit q).queue, m.reason = .newValue → m.slot ≠ k) →
    exec .landingNotification s = .next
      { s.noted told (fun q =>
          { reason := .newValue, slot := k, identifier := r.config.identifier, sequence := r.value.sequence,
            reply := served.has q, coalesced := false, isSealed := false, stamp := s.time.extractLsb' 0 16 }) with
        slots := s.slots.set k
          { r with unread := PerPort.ofFn told, missed := PerPort.ofFn fun q => r.missed.has q || r.unread.has q }
        flight := some { l with notified := true } }

/-- The end of a landing, all three parts done: the mark is cleared, and the exchange goes on in RUNNING, becomes FROZEN from FREEZING
and at the end of a step, and goes on or ends with a drain. With the restart mark set it waits for the restart. A landing with a part
still to do does not end. On a RETIRING slot with no holder and no VIEW waiting the retirement completes too, with its notes placed; a
VIEW that waits, and whose old hold ends without consequence, is granted or finds the slot gone, as a free choice has it (R16, R39, R56,
R76, R144, R151, R153, R155; log entry 3). A holder of the landing's slot, whom HoldLaw rules out, would keep it RETIRING. The restart
it waits for is an event of its own (log entries 4 and 17). -/
def Obligations.LandingEnds : Prop :=
  ∀ (s : State) (l : Landing) (served : PortSet), s.settled → s.flight = some l →
    (l.served = none ∨ l.notified = false ∨ l.timed = false → exec .landingEnd s = .next s) ∧
    (l.served = some served → l.notified = true → l.timed = true → (s.slot l.offer.slot).state ≠ .retiring →
      (s.exchange = .running ∨ s.restartMark = true → exec .landingEnd s = .next { s with flight := none }) ∧
      (s.restartMark = false → s.due = [] →
        (s.exchange = .freezing → exec .landingEnd s = .next { s with flight := none }.frozenNow) ∧
        (s.exchange = .stepping →
          (∀ i, s.task = some (.step i) → exec .landingEnd s = .next { s with flight := none }.frozenNow) ∧
          (∀ k, s.task = some (.drain k) → s.freezeMark = true →
            exec .landingEnd s = .next { s with flight := none }.frozenNow) ∧
          (∀ k j js, s.task = some (.drain k) → s.freezeMark = false → s.ripe = j :: js →
            exec .landingEnd s = .next { s with flight := none, task := some (.drain j) }) ∧
          (∀ k, s.task = some (.drain k) → s.freezeMark = false → s.ripe = [] →
            exec .landingEnd s = .next
              ({ s with flight := none, exchange := .running, task := none }.finished fun q => s.inHand q .resume))))) ∧
    (l.served = some served → l.notified = true → l.timed = true → (s.slot l.offer.slot).state = .retiring →
      (s.exchange = .running ∨ s.restartMark = true →
        (∃ q, s.holding q l.offer.slot = true) → exec .landingEnd s = .next { s with flight := none }) ∧
      ((∀ q, s.holding q l.offer.slot = false ∧ s.phaseOf q ≠ some (.behindLanding l.offer.slot)) →
        s.roomToRetire l.offer.slot →
        let t := { s with flight := none }.retired l.offer.slot
        (s.exchange = .running ∨ s.restartMark = true → exec .landingEnd s = .next t) ∧
        (s.restartMark = false → s.due = [] →
          (s.exchange = .freezing → exec .landingEnd s = .next t.frozenNow) ∧
          (s.exchange = .stepping →
            (∀ i, s.task = some (.step i) → exec .landingEnd s = .next t.frozenNow) ∧
            (∀ k, s.task = some (.drain k) → s.freezeMark = true → exec .landingEnd s = .next t.frozenNow) ∧
            (∀ k j js, s.task = some (.drain k) → s.freezeMark = false → s.ripe = j :: js →
              exec .landingEnd s = .next { t with task := some (.drain j) }) ∧
            (∀ k, s.task = some (.drain k) → s.freezeMark = false → s.ripe = [] →
              exec .landingEnd s = .next
                ({ t with exchange := .running, task := none }.finished fun q => s.inHand q .resume))))) ∧
      (∀ p, s.phaseOf p = some (.behindLanding l.offer.slot) → (∀ q, s.holding q l.offer.slot = false) →
        (∀ q, q ≠ p → s.phaseOf q ≠ some (.behindLanding l.offer.slot)) → s.roomToRetire l.offer.slot →
        s.exchange = .running → s.endsQuietly p = true → s.watch.hits .view l.offer.slot (.port p) = false →
        ∃ c, exec .landingEnd s = .next { { s with flight := none }.retired l.offer.slot with freeCount := c } ∨
          exec .landingEnd s = .next
            { ({ s with flight := none }.withView p l.offer.slot).answered p .done with freeCount := c }))

/-- When the end of a landing makes a FREEZING exchange FROZEN, every due value goes back to its slot as the pending value and is ripe,
in acceptance order, and no other value of a slot changes (R45, R151). -/
def Obligations.DueValuesBecomeRipe : Prop :=
  ∀ (s : State) (l : Landing), s.HoldLaw → s.inReset = false → s.flight = some l → l.served.isSome = true →
    l.notified = true → l.timed = true → (s.slot l.offer.slot).state ≠ .retiring → s.exchange = .freezing →
    s.restartMark = false →
    ∃ t, exec .landingEnd s = .next t ∧ t.exchange = .frozen ∧ t.flight = none ∧ t.due = [] ∧
      (∀ k, k ∈ t.ripe ↔ ∃ o ∈ s.due, o.slot = k) ∧ t.ripe.Nodup ∧
      (t.ripe.map t.parkedOrder).Pairwise (· ≤ ·) ∧
      (∀ o ∈ s.due, t.slot o.slot = { s.slot o.slot with parked := some o }) ∧
      ∀ k, (∀ o ∈ s.due, o.slot ≠ k) → t.slot k = s.slot k

/-! ### Views and holds -/

/-- A VIEW that passes its check on a slot with no landing in progress is granted: the port's old hold ends, it holds the slot, with the
view state of R19 and an expiry time one hold timeout away, and it leaves the unread and missed sets. The command completes with DONE
(R19, R54). Here the end of the old hold has no consequence and the watch does not match. -/
def Obligations.ViewIsGranted : Prop :=
  ∀ (s : State) (p : Port) (n : Byte) (k : SlotIx), s.ready p → k.val = n.toNat →
    ((s.slot k).state = .opened ∨ (s.slot k).state = .live) → s.holding p k = false → s.landingMark k = false →
    s.endsQuietly p = true → s.watch.hits .view k (.port p) = false →
    exec (.view p n) s = .next ((s.withView p k).answered p .done)

/-- The other outcomes of VIEW: a refresh of the port's own hold, which keeps the hold set and the pending value; the wait behind a
landing; the refusals of the slot check, which leave the hold as it was (R8, R54, R55, R56). -/
def Obligations.ViewRefreshesWaitsOrIsRefused : Prop :=
  ∀ (s : State) (p : Port) (n : Byte), s.ready p → s.bears p 4 →
    (95 < n.toNat → exec (.view p n) s = .next ((s.answered p .noSlot).fined p 4)) ∧
    ∀ k : SlotIx, k.val = n.toNat →
      ((s.slot k).state = .unused → exec (.view p n) s = .next ((s.answered p .noSlot).fined p 4)) ∧
      ((s.slot k).state = .retiring → exec (.view p n) s = .next (s.answered p .retiring)) ∧
      ((s.slot k).state = .opened ∨ (s.slot k).state = .live →
        (s.holding p k = true → s.watch.hits .view k (.port p) = false →
          exec (.view p n) s = .next
            ({ s.withView p k with due := s.due, ripe := s.ripe
                                   slots := s.slots.set k { s.slot k with unread := (s.slot k).unread.erase p
                                                                          missed := (s.slot k).missed.erase p } }.answered
              p .done)) ∧
        (s.holding p k = false → s.landingMark k = true →
          exec (.view p n) s = .next (s.busyWith p .view n (.behindLanding k))))

/-- The grant of a VIEW that waited behind a landing, once no landing is in progress on its slot and the exchange is not RESTARTING;
until then it waits on. A slot that has become UNUSED meanwhile gives RETIRING without penalty (R56). How it waits is the model's choice
(log entries 4 and 12). -/
def Obligations.WaitingViewIsGranted : Prop :=
  ∀ (s : State) (p : Port), s.settled →
    (∀ k, s.phaseOf p = some (.behindLanding k) →
      (s.landingMark k = false → s.exchange ≠ .restarting → s.holding p k = false → s.endsQuietly p = true →
        s.watch.hits .view k (.port p) = false →
        exec (.viewGrant p) s = .next ((s.withView p k).answered p .done)) ∧
      (s.landingMark k = true ∨ s.exchange = .restarting → exec (.viewGrant p) s = .next s)) ∧
    (s.phaseOf p = some .slotGone → s.exchange ≠ .restarting → s.inside p = true →
      exec (.viewGrant p) s = .next (s.answered p .retiring)) ∧
    (s.phaseOf p = none → exec (.viewGrant p) s = .next s)

/-- RELEASE ends the port's hold and completes with DONE; with nothing held it is refused with NOT_HELD, without penalty (R58). The end
of the hold has no consequence where others hold the slot, or it has no pending value and is not RETIRING. The last release of a
RETIRING slot completes the retirement: a RETIRED note to each subscriber, the notes that name the slot sealed, the record cleared (R16,
R76). Here these notes are placed. -/
def Obligations.ReleaseEndsTheHold : Prop :=
  ∀ (s : State) (p : Port) (n : Byte), s.ready p →
    (s.hold p = none → exec (.release p n) s = .next (s.answered p .notHeld)) ∧
    (∀ h, s.hold p = some h → s.endsQuietly p = true →
      exec (.release p n) s = .next ({ s with holds := s.holds.set p none }.answered p .done)) ∧
    (∀ h, s.hold p = some h → s.heldByOther p h.slot = false → (s.slot h.slot).state = .retiring →
      (s.slot h.slot).parked = none → s.landingMark h.slot = false → s.roomToRetire h.slot →
      exec (.release p n) s = .next (({ s with holds := s.holds.set p none }.retired h.slot).answered p .done))

/-- The last release of a slot with a pending value, by exchange state: it lands at once in RUNNING with nothing in flight and no
restart waiting, goes to its place in acceptance order on the due list in RUNNING otherwise and in FREEZING, and becomes ripe in FROZEN
and STEPPING (R43, R44, R45, R58). -/
def Obligations.LastReleaseSendsThePendingValue : Prop :=
  ∀ (s : State) (p : Port) (n : Byte) (h : Hold) (o : Offer), s.ready p → s.hold p = some h →
    s.heldByOther p h.slot = false → (s.slot h.slot).parked = some o → o.slot = h.slot → (s.slot h.slot).state ≠ .retiring →
    let t := { s with holds := s.holds.set p none }.answered p .done
    let bare := s.slots.set h.slot { s.slot h.slot with parked := none }
    (s.exchange = .running → s.flight = none → s.restartMark = false →
      (o.passed = true ∨ s.watch.hits .landing o.slot o.source = false) →
      exec (.release p n) s = .next ({ t with slots := bare }.beginLanding o)) ∧
    ((s.exchange = .running ∧ (s.flight.isSome = true ∨ s.restartMark = true)) ∨ s.exchange = .freezing →
      ∃ before after, s.due = before ++ after ∧ (∀ x ∈ before, x.order ≤ o.order) ∧
        (∀ x ∈ after.head?, o.order < x.order) ∧
        exec (.release p n) s = .next { t with slots := bare, due := before ++ o :: after }) ∧
    (s.exchange = .frozen ∨ s.exchange = .stepping → h.slot ∉ s.ripe →
      ∃ before after, s.ripe = before ++ after ∧ (∀ j ∈ before, s.parkedOrder j ≤ o.order) ∧
        (∀ j ∈ after.head?, o.order < s.parkedOrder j) ∧
        exec (.release p n) s = .next { t with ripe := before ++ h.slot :: after })

/-- A hold expires when the time base reaches its expiry time, in RUNNING or FREEZING: it ends, a HOLD_EXPIRED note is appended to the
port's own queue and the port is penalised 8. Before that time, and while the time base is stopped, it does not expire (R61). Here the
queue has room, and the end of the hold has no consequence or completes a retirement, whose cleared record gives the note its identifier
(R16, R74; log entry 13). The expiry is an event of its own, which does not take place early (log entries 4 and 8). -/
def Obligations.HoldExpires : Prop :=
  ∀ (s : State) (p : Port) (h : Hold), s.settled → s.hold p = some h →
    (s.exchange = .running ∨ s.exchange = .freezing → s.time = h.expiry → s.endsQuietly p = true → s.roomFor p = true →
      s.inside p = true → (s.healthOf p).mark = false → s.bears p 8 →
      exec (.holdExpiry p) s = .next
        ({ s.noted (fun q => q == p) (fun _ =>
            { reason := .holdExpired, slot := h.slot, identifier := (s.slot h.slot).config.identifier, sequence := 0#16, reply := false,
              coalesced := false, isSealed := false, stamp := s.time.extractLsb' 0 16 }) with
          holds := s.holds.set p none }.fined p 8)) ∧
    (s.exchange = .running ∨ s.exchange = .freezing → s.time = h.expiry → s.heldByOther p h.slot = false →
      (s.slot h.slot).state = .retiring → (s.slot h.slot).parked = none → s.landingMark h.slot = false →
      s.roomToRetire h.slot → s.roomFor p = true → (s.noteUnit p).queue.length < 14 →
      s.inside p = true → (s.healthOf p).mark = false → s.bears p 8 →
      exec (.holdExpiry p) s = .next
        ((({ s with holds := s.holds.set p none }.retired h.slot).noted (fun q => q == p) fun _ =>
            s.noteAbout .holdExpired h.slot 0#12).fined p 8)) ∧
    (s.exchange = .frozen ∨ s.exchange = .stepping ∨ s.exchange = .restarting → exec (.holdExpiry p) s = .next s) ∧
    (∀ d : Nat, 0 < d → d < 2 ^ 31 → h.expiry = s.time + BitVec.ofNat 32 d → exec (.holdExpiry p) s = .next s)

/-! ### Notes -/

/-- A port is a subscriber of a slot exactly when it is not the owner, is ACTIVE or DEGRADED, is DELIVERING, and has an enabled filter
that agrees with the slot's identifier in every bit where its mask holds a 1 (R68, R70). -/
def Obligations.SubscribersAreTheMatchingPorts : Prop :=
  ∀ (s : State) (k : SlotIx) (p : Port),
    s.subscribes k p = true ↔
      p ≠ (s.slot k).config.owner ∧ ((s.healthOf p).state = .active ∨ (s.healthOf p).state = .degraded) ∧
      (s.noteUnit p).delivery = .delivering ∧
      ∃ i : Fin 8,
        let f := (s.noteUnit p).filters.get i
        f.enabled = true ∧
        ∀ b : Nat, f.mask.getLsbD b = true → f.identifier.getLsbD b = (s.slot k).config.identifier.getLsbD b

/-- The outcomes of an append, by the first test of R75 that applies: discarded at a CLOSED port; folded into the first queued note of
the same matter, which keeps its place, stamp, slot and identifier; discarded behind a LOST note; LOST in the sixteenth place and a
penalty of 16 at 15 ordinary notes; placed at the tail (R75, R76, R77). -/
def Obligations.NoteAppendOutcomes : Prop :=
  ∀ (s : State) (p : Port) (n : Note),
    let m := s.noteUnit p
    let folds := n.reason = .stale ∨ n.reason = .retired ∨ n.reason = .orphaned ∨
      (n.reason = .newValue ∧ (s.slot n.slot).config.kind = .state)
    let same := fun q : Note =>
      q.reason = n.reason ∧ q.slot = n.slot ∧ q.identifier = n.identifier ∧ q.isSealed = false
    let lost := ∃ q ∈ m.queue, q.reason = .lost
    let folded := fun q : Note =>
      { q with coalesced := true, sequence := if n.reason = .newValue then n.sequence else q.sequence,
               reply := if n.reason = .newValue then q.reply || n.reply else q.reply }
    let lostNote : Note :=
      { reason := .lost, slot := n.slot, identifier := n.identifier, sequence := 0#16, reply := false, coalesced := false,
        isSealed := false, stamp := s.time.extractLsb' 0 16 }
    let withQueue := fun q : List Note => { s with notes := s.notes.set p { m with queue := q } }
    (m.delivery = .closed → s.appendNote p n = s) ∧
    (m.delivery = .delivering →
      (folds → ∀ before q after, m.queue = before ++ q :: after → (∀ x ∈ before, ¬ same x) → same q →
        s.appendNote p n = withQueue (before ++ folded q :: after)) ∧
      ((¬ folds ∨ ∀ q ∈ m.queue, ¬ same q) →
        (lost → s.appendNote p n = s) ∧
        (¬ lost → m.queue.length < 15 →
          s.appendNote p n = withQueue (m.queue ++ [n])) ∧
        (¬ lost → 15 ≤ m.queue.length →
          s.appendNote p n =
            { withQueue (m.queue ++ [lostNote]) with
              reports := s.reports ++ [{ port := p, kind := .penalty 16, byNotification := true }] })))

/-- A read of NOTE TAKE returns the reason and slot of the head note, takes that note off the queue into the latch and earns a credit;
on an empty queue it returns 0 and empties the latch. It also ends the port's hold. The port's commands are not touched (R59, R79, R81).
Here the end of the hold has no consequence. The word returned stands in the model's own field lastRead (log entry 5). -/
def Obligations.NoteTakePopsTheHead : Prop :=
  ∀ (s : State) (p : Port), s.listens p → s.endsQuietly p = true →
    let read := s.windowRead p 0x20#6
    let u := s.port p
    ((s.noteUnit p).queue = [] →
      read = 0#16 ∧
      exec (.noteTake p) s = .next
        { s with ports := s.ports.set p { u with latch := none, lastRead := some 0#16 }
                 holds := s.holds.set p none }) ∧
    (∀ n rest, (s.noteUnit p).queue = n :: rest → s.inside p = true →
      read = n.reason.code ++ 0#5 ++ BitVec.ofNat 7 n.slot.val ∧
      let t := { s with ports := s.ports.set p { u with latch := some n, lastRead := some read }
                        notes := s.notes.set p { s.noteUnit p with queue := rest }
                        holds := s.holds.set p none }
      ((s.healthOf p).mark = false → exec (.noteTake p) s = .next (t.rewarded p)) ∧
      ((s.healthOf p).mark = true → exec (.noteTake p) s = .next t))

/-! ### Requests -/

/-- The REQUEST that finds the requester set empty begins a round: the port joins the set and the deadline is armed, that many times
1000 µs away. On an OWNER_ANSWERS slot the owner is appended a REQUEST note (here its queue has room), and on an AUTO_ANSWER slot an
echo stands at the tail of the Publication Queue. A REQUEST that finds a round joins it silently (R92, R93, R94). The number nextOrder
is the model's own (log entry 2). -/
def Obligations.RequestBeginsOrJoinsARound : Prop :=
  ∀ (s : State) (p : Port) (n : Byte) (k : SlotIx), s.ready p → (s.healthOf p).state = .active → k.val = n.toNat →
    let r := s.slot k
    (r.state = .opened ∨ r.state = .live) → r.config.owner ≠ p → r.config.requestDeadline ≠ 0#8 →
    s.watch.hits .request k (.port p) = false →
    let joined : Slot := { r with requesters := r.requesters.insert p }
    let begun : Slot :=
      { joined with deadline := some (s.time + BitVec.ofNat 32 (r.config.requestDeadline.toNat * 1000)) }
    let echo : Offer :=
      { source := .exchange, slot := k, length := 0#4, data := Table.fill 8 0#16, stamp := s.time, snapshot := true,
        passed := false, order := s.nextOrder }
    (r.config.answer = .ownerAnswers → r.orphaned = false → s.lostOwners.has r.config.owner = false →
      (r.requesters = PortSet.empty → s.roomFor r.config.owner = true →
        exec (.request p n) s = .next
          ({ s.noted (fun q => q == r.config.owner) (fun _ =>
              { reason := .request, slot := k, identifier := r.config.identifier, sequence := 0#16, reply := false,
                coalesced := false, isSealed := false, stamp := s.time.extractLsb' 0 16 }) with
            slots := s.slots.set k begun }.answered p .done)) ∧
      (r.requesters ≠ PortSet.empty →
        exec (.request p n) s = .next ({ s with slots := s.slots.set k joined }.answered p .done))) ∧
    (r.config.answer = .autoAnswer → r.state = .live →
      (r.requesters = PortSet.empty → s.queue.length < 8 →
        exec (.request p n) s = .next
          ({ s with slots := s.slots.set k begun
                    queue := s.queue ++ [echo]
                    nextOrder := s.nextOrder + 1 }.answered p .done)) ∧
      (r.requesters ≠ PortSet.empty →
        exec (.request p n) s = .next ({ s with slots := s.slots.set k joined }.answered p .done)))

/-- The checks of REQUEST, in their order: the first that fails gives the result, with a penalty of 4 where the refusal is penalised,
and nothing else changes (R8, R91, R123). -/
def Obligations.RequestRefusals : Prop :=
  ∀ (s : State) (p : Port) (n : Byte), s.ready p → s.bears p 4 →
    ((s.healthOf p).state = .degraded → exec (.request p n) s = .next (s.answered p .degraded)) ∧
    ((s.healthOf p).state = .active →
      (95 < n.toNat → exec (.request p n) s = .next ((s.answered p .noSlot).fined p 4)) ∧
      ∀ k : SlotIx, k.val = n.toNat →
        let r := s.slot k
        (r.state = .unused → exec (.request p n) s = .next ((s.answered p .noSlot).fined p 4)) ∧
        (r.state = .retiring → exec (.request p n) s = .next (s.answered p .retiring)) ∧
        (r.state = .opened ∨ r.state = .live →
          (r.config.owner = p → exec (.request p n) s = .next ((s.answered p .ownSlot).fined p 4)) ∧
          (r.config.owner ≠ p →
            (r.config.requestDeadline = 0#8 → exec (.request p n) s = .next (s.answered p .notRequestable)) ∧
            (r.config.requestDeadline ≠ 0#8 →
              (r.config.answer = .ownerAnswers → r.orphaned = true ∨ s.lostOwners.has r.config.owner = true →
                exec (.request p n) s = .next (s.answered p .orphaned)) ∧
              (r.config.answer = .autoAnswer → r.state = .opened →
                exec (.request p n) s = .next (s.answered p .noValue)) ∧
              (r.config.answer = .autoAnswer → r.state = .live → r.requesters = PortSet.empty → 8 ≤ s.queue.length →
                exec (.request p n) s = .next (s.answered p .queueFull))))))

/-- A deadline expires when the time base reaches it, in RUNNING or FREEZING: each requester is appended REQUEST_TIMEOUT, the set is
emptied and the deadline disarmed, and the owner of an OWNER_ANSWERS slot is penalised 8 where no value that it published with the
snapshot flag set is queued, in flight, pending or due. While the time base is stopped, or before the time, nothing happens (R33, R98).
Here the queues have room. The expiry is an event of its own, which does not take place early (log entries 4 and 8). -/
def Obligations.DeadlineExpires : Prop :=
  ∀ (s : State) (k : SlotIx) (d : Time), s.settled → (s.slot k).deadline = some d →
    let r := s.slot k
    let owner := r.config.owner
    let answers := fun o : Offer => o.slot = k ∧ o.snapshot = true ∧ o.source = .port owner
    let answered := (∃ o ∈ s.queue ++ s.due, answers o) ∨ (∃ o, r.parked = some o ∧ answers o) ∨
      ∃ l, s.flight = some l ∧ answers l.offer
    (s.exchange = .running ∨ s.exchange = .freezing → s.time = d →
      (∀ q, r.requesters.has q = true → s.roomFor q = true) →
      let t := { s.noted (fun q => r.requesters.has q) (fun _ =>
                  { reason := .requestTimeout, slot := k, identifier := r.config.identifier, sequence := 0#16,
                    reply := false, coalesced := false, isSealed := false, stamp := s.time.extractLsb' 0 16 }) with
                slots := s.slots.set k { r with requesters := PortSet.empty, deadline := none } }
      (r.config.answer = .autoAnswer ∨ answered → exec (.deadlineExpiry k) s = .next t) ∧
      (r.config.answer = .ownerAnswers → ¬ answered → s.inside owner = true → (s.healthOf owner).mark = false →
        s.bears owner 8 → exec (.deadlineExpiry k) s = .next (t.fined owner 8))) ∧
    (s.exchange = .frozen ∨ s.exchange = .stepping ∨ s.exchange = .restarting → exec (.deadlineExpiry k) s = .next s) ∧
    (∀ e : Nat, 0 < e → e < 2 ^ 31 → d = s.time + BitVec.ofNat 32 e → exec (.deadlineExpiry k) s = .next s)

/-- A freshness timer expires when the time base reaches it, in RUNNING or FREEZING: it is disarmed, STALE is set and each subscriber is
appended a STALE note. While the time base is stopped, or before the time, nothing happens (R113). Here the queues have room and no
STALE note of the slot. The expiry is an event of its own, which does not take place early (log entries 4 and 8). -/
def Obligations.FreshnessExpires : Prop :=
  ∀ (s : State) (k : SlotIx) (d : Time), s.settled → (s.slot k).freshness = some d →
    (s.exchange = .running ∨ s.exchange = .freezing → s.time = d →
      (∀ q, s.subscribes k q = true → s.roomFor q = true ∧ ∀ m ∈ (s.noteUnit q).queue, m.reason = .stale → m.slot ≠ k) →
      exec (.freshnessExpiry k) s = .next
        { s.noted (s.subscribes k) (fun _ =>
            { reason := .stale, slot := k, identifier := (s.slot k).config.identifier, sequence := 0#16, reply := false,
              coalesced := false, isSealed := false, stamp := s.time.extractLsb' 0 16 }) with
          slots := s.slots.set k { s.slot k with freshness := none, stale := true } }) ∧
    (s.exchange = .frozen ∨ s.exchange = .stepping ∨ s.exchange = .restarting → exec (.freshnessExpiry k) s = .next s) ∧
    (∀ e : Nat, 0 < e → e < 2 ^ 31 → d = s.time + BitVec.ofNat 32 e → exec (.freshnessExpiry k) s = .next s)

/-! ### The token and configuration -/

/-- CLAIM_TOKEN and YIELD_TOKEN, in every case. A token command of a port that does not hold the token is refused with NO_TOKEN, with a
penalty of 4, and changes nothing else (R138, R139, R143). -/
def Obligations.TokenRules : Prop :=
  ∀ (s : State) (p : Port) (n : Byte), s.ready p → s.bears p 4 →
    ((s.healthOf p).state = .degraded → exec (.claimToken p n) s = .next (s.answered p .degraded)) ∧
    ((s.healthOf p).state = .active →
      (s.token = some p → exec (.claimToken p n) s = .next (s.answered p .done)) ∧
      (∀ q, q ≠ p → s.token = some q → exec (.claimToken p n) s = .next (s.answered p .tokenHeld)) ∧
      (s.token = none → exec (.claimToken p n) s = .next ({ s with token := some p }.answered p .done))) ∧
    (s.token = some p → exec (.yieldToken p n) s = .next ({ s with token := none }.answered p .done)) ∧
    (s.token ≠ some p → exec (.yieldToken p n) s = .next ((s.answered p .noToken).fined p 4)) ∧
    (s.token ≠ some p → ∀ c ∈ tokenCommands, exec (c p n) s = .next ((s.answered p .noToken).fined p 4))

/-- CONFIGURE_SLOT that passes its checks writes the configuration that the argument words hold into a slot record with nothing in it,
OPEN, and ORPHANED where the owner is DETACHED or REJOINING, and completes with DONE (R9, R11, R176). -/
def Obligations.ConfigureOpensTheSlot : Prop :=
  ∀ (s : State) (p : Port) (n : Byte) (k : SlotIx), s.ready p → s.token = some p → k.val = n.toNat →
    (s.slot k).state = .unused →
    let a := (s.port p).arg0
    let b := (s.port p).arg1
    let c := (s.port p).arg2
    a.toNat ≤ 0x0FFF → b.toNat ≤ 4095 → 1 ≤ (c.toNat / 16) % 16 → (c.toNat / 16) % 16 ≤ 8 →
    (∀ j, j ≠ k → (s.slot j).state ≠ .unused → (s.slot j).config.identifier.toNat ≠ a.toNat) →
    s.watch.hits .config k (.port p) = false →
    ∃ g : SlotConfig,
      let fresh : Slot :=
        { config := g, state := .opened,
          value := { length := 0#4, data := Table.fill 8 0#16, sequence := 0#16, stamp := 0#32, echo := false },
          stale := false, orphaned := !s.inside g.owner, unread := PortSet.empty, missed := PortSet.empty,
          requesters := PortSet.empty, parked := none, deadline := none, freshness := none }
      exec (.configureSlot p n) s = .next ({ s with slots := s.slots.set k fresh }.answered p .done) ∧
      g.identifier.toNat = a.toNat ∧ g.freshnessLimit.toNat = b.toNat ∧ g.owner.number = c.toNat % 4 ∧
      (g.kind = .event ↔ c.getLsbD 2 = true) ∧ (g.answer = .autoAnswer ↔ c.getLsbD 3 = true) ∧
      g.maxLength.toNat = (c.toNat / 16) % 16 ∧ g.requestDeadline.toNat = c.toNat / 256

/-- The checks of CONFIGURE_SLOT, in their order (R10). -/
def Obligations.ConfigureRefusals : Prop :=
  ∀ (s : State) (p : Port) (n : Byte), s.ready p → s.bears p 4 → s.token = some p →
    (95 < n.toNat → exec (.configureSlot p n) s = .next ((s.answered p .noSlot).fined p 4)) ∧
    ∀ k : SlotIx, k.val = n.toNat →
      let a := (s.port p).arg0
      let b := (s.port p).arg1
      let len := ((s.port p).arg2.toNat / 16) % 16
      let bad := 0x0FFF < a.toNat ∨ 4095 < b.toNat ∨ len = 0 ∨ 8 < len
      ((s.slot k).state = .retiring → exec (.configureSlot p n) s = .next (s.answered p .retiring)) ∧
      ((s.slot k).state = .opened ∨ (s.slot k).state = .live →
        exec (.configureSlot p n) s = .next (s.answered p .slotInUse)) ∧
      ((s.slot k).state = .unused → bad →
        exec (.configureSlot p n) s = .next ((s.answered p .badArgument).fined p 4)) ∧
      ((s.slot k).state = .unused → ¬ bad →
        (∃ j, j ≠ k ∧ (s.slot j).state ≠ .unused ∧ (s.slot j).config.identifier.toNat = a.toNat) →
        exec (.configureSlot p n) s = .next (s.answered p .idInUse))

/-- RETIRE_SLOT of a slot that is held or landing, and for which nothing waits, makes it RETIRING with its freshness timer disarmed and
completes with DONE; value, sets and flags stay. A slot that may not be retired gives the refusals of R13 (R13, R14). -/
def Obligations.RetireOfASlotInUse : Prop :=
  ∀ (s : State) (p : Port) (n : Byte), s.ready p → s.bears p 4 → s.token = some p →
    (95 < n.toNat → exec (.retireSlot p n) s = .next ((s.answered p .noSlot).fined p 4)) ∧
    ∀ k : SlotIx, k.val = n.toNat →
      ((s.slot k).state = .unused → exec (.retireSlot p n) s = .next ((s.answered p .noSlot).fined p 4)) ∧
      ((s.slot k).state = .retiring → exec (.retireSlot p n) s = .next (s.answered p .retiring)) ∧
      ((s.slot k).state = .opened ∨ (s.slot k).state = .live →
        ((∃ q, s.holding q k = true) ∨ s.landingMark k = true) → (∀ o ∈ s.queue ++ s.due, o.slot ≠ k) →
        (s.slot k).parked = none → (s.slot k).requesters = PortSet.empty → (s.slot k).deadline = none →
        s.watch.hits .config k (.port p) = false →
        exec (.retireSlot p n) s = .next
          ({ s with slots := s.slots.set k { s.slot k with state := .retiring, freshness := none } }.answered p .done))

/-- An accepted RETIRE_SLOT leaves nothing of the slot waiting: no entry in the Publication Queue, no pending, due or ripe value, no
requester and no armed timer. Holders keep the value and the sets; with no holder and no landing the slot is at once UNUSED and its
record cleared. Every other slot, the other ports' entries, the holds and the exchange state stay. Where the queues have room, each
publisher that is ACTIVE or DEGRADED is appended a DROPPED note for each of its values, each requester a REQUEST_TIMEOUT note, and, on
completion, each subscriber a RETIRED note, before the notes that name the slot are sealed (R14, R16, R76). -/
def Obligations.RetireRemovesWhatWaits : Prop :=
  ∀ (s : State) (p : Port) (n : Byte) (k : SlotIx), s.ready p → s.token = some p → k.val = n.toNat →
    ((s.slot k).state = .opened ∨ (s.slot k).state = .live) → s.watch.hits .config k (.port p) = false →
    ∃ t, exec (.retireSlot p n) s = .next t ∧ (t.port p).unit.busy = none ∧ (t.port p).unit.result = .done ∧
      t.queue = s.queue.filter (fun o => o.slot != k) ∧ t.due = s.due.filter (fun o => o.slot != k) ∧
      (t.slot k).parked = none ∧ (t.slot k).requesters = PortSet.empty ∧ (t.slot k).deadline = none ∧
      (t.slot k).freshness = none ∧ (∀ j, j ≠ k → t.slot j = s.slot j) ∧ t.holds = s.holds ∧ t.flight = s.flight ∧
      t.exchange = s.exchange ∧ t.time = s.time ∧ t.token = s.token ∧ t.watch = s.watch ∧ t.lostOwners = s.lostOwners ∧
      t.holdTimeout = s.holdTimeout ∧ (∀ j, j ≠ k → (j ∈ t.ripe ↔ j ∈ s.ripe)) ∧
      ((s.slot k).parked.isSome = true → k ∉ t.ripe) ∧
      (((∃ q, s.holding q k = true) ∨ s.landingMark k = true) →
        (t.slot k).state = .retiring ∧ (t.slot k).config = (s.slot k).config ∧ (t.slot k).value = (s.slot k).value ∧
        (t.slot k).unread = (s.slot k).unread ∧ (t.slot k).missed = (s.slot k).missed ∧
        (t.slot k).stale = (s.slot k).stale ∧ (t.slot k).orphaned = (s.slot k).orphaned) ∧
      ((∀ q, s.holding q k = false) → s.landingMark k = false →
        t.slot k =
          { config := { identifier := 0#12, owner := .a, kind := .state, answer := .ownerAnswers, maxLength := 1#4,
                        freshnessLimit := 0#12, requestDeadline := 0#8 },
            state := .unused,
            value := { length := 0#4, data := Table.fill 8 0#16, sequence := 0#16, stamp := 0#32, echo := false },
            stale := false, orphaned := false, unread := PortSet.empty, missed := PortSet.empty,
            requesters := PortSet.empty, parked := none, deadline := none, freshness := none }) ∧
      (let done := (Port.all.all fun q => !s.holding q k) && !s.landingMark k
       let i := (s.slot k).config.identifier
       let waiting := fun q => (s.queue.filter fun o => o.slot == k && o.source == .port q).length +
         if ((s.due.find? fun o => o.slot == k).or (s.slot k).parked).any (fun o => o.source == .port q) then 1 else 0
       let dropped := fun q => if s.inside q = true then waiting q else 0
       (∀ q, (s.noteUnit q).delivery = .delivering ∧ (∀ m ∈ (s.noteUnit q).queue, m.reason ≠ .lost) ∧
         (s.noteUnit q).queue.length + dropped q + 2 ≤ 15 ∧
         ∀ m ∈ (s.noteUnit q).queue, m.reason = .retired → m.slot ≠ k) →
       (∀ q, (t.noteUnit q).queue =
         let told := (s.noteUnit q).queue ++ List.replicate (dropped q) (s.noteAbout .dropped k i) ++
           if (s.slot k).requesters.has q = true then [s.noteAbout .requestTimeout k i] else []
         let retired := if s.subscribes k q = true then [s.noteAbout .retired k i] else []
         if done then sealedFor k (told ++ retired) else told) ∧ t.health = s.health)

/-- SET_HOLD_TIMEOUT takes 1 to 255; SET_REJOIN_POLICY takes a port's number, 0 to 3, and 0 or 1. Any other argument is refused with
BAD_ARGUMENT, penalised. Each changes its one setting. SET_TIME writes the time base, ARG1 its high half and ARG0 its low half, clears
the prescaler, and moves every armed timer by the difference, modulo 2^32, so that each keeps the time it has left; every recorded stamp
stays (R60, R110, R111, R132). -/
def Obligations.SettingsAndTimeAreSet : Prop :=
  ∀ (s : State) (p : Port) (n : Byte), s.ready p → s.token = some p →
    let a := (s.port p).arg0
    let b := (s.port p).arg1
    (1 ≤ a.toNat → a.toNat ≤ 255 →
      exec (.setHoldTimeout p n) s = .next ({ s with holdTimeout := BitVec.ofNat 8 a.toNat }.answered p .done)) ∧
    (a.toNat = 0 ∨ 255 < a.toNat → s.bears p 4 →
      exec (.setHoldTimeout p n) s = .next ((s.answered p .badArgument).fined p 4)) ∧
    (∀ q : Port, a.toNat = q.number → b.toNat ≤ 1 →
      exec (.setRejoinPolicy p n) s = .next
        ({ s with health := s.health.set q { s.healthOf q with autoRejoin := decide (b.toNat = 1) } }.answered p .done)) ∧
    (3 < a.toNat ∨ 1 < b.toNat → s.bears p 4 →
      exec (.setRejoinPolicy p n) s = .next ((s.answered p .badArgument).fined p 4)) ∧
    (let v : Time := BitVec.ofNat 32 (b.toNat * 65536 + a.toNat)
     let move := fun d : Time => d + (v - s.time)
     exec (.setTime p n) s = .next
       ({ s with
           time := v
           prescaler := 0#4
           slots := s.slots.map fun r : Slot =>
             { r with deadline := r.deadline.map move, freshness := r.freshness.map move }
           holds := PerPort.ofFn fun q => (s.hold q).map fun h : Hold => { h with expiry := move h.expiry }
           health := PerPort.ofFn fun q => { s.healthOf q with quiet := (s.healthOf q).quiet.map move } }.answered p .done))

/-! ### Freeze, step, inspection and watch -/

/-- FREEZE by the exchange state: RUNNING with nothing in flight becomes FROZEN, RUNNING with a landing in flight FREEZING; a FREEZE in
FREEZING or STEPPING waits for FROZEN, and in FROZEN completes at once (R150). Here the due list is empty, and in STEPPING a landing is
in flight or the item of a step is still to be taken. -/
def Obligations.FreezeByExchangeState : Prop :=
  ∀ (s : State) (p : Port) (n : Byte), s.ready p → s.token = some p →
    let waiting := s.busyWith p .freeze n .taken
    (s.exchange = .running → s.flight = none → s.due = [] → exec (.freeze p n) s = .next waiting.frozenNow) ∧
    (s.exchange = .running → s.flight.isSome = true →
      exec (.freeze p n) s = .next { waiting with exchange := .freezing }) ∧
    (s.exchange = .freezing → exec (.freeze p n) s = .next waiting) ∧
    (s.exchange = .frozen → exec (.freeze p n) s = .next (s.answered p .done)) ∧
    (s.exchange = .stepping → (s.flight.isSome = true ∨ ∃ i, s.task = some (.step i)) →
      exec (.freeze p n) s = .next { waiting with freezeMark := true }) ∧
    (∀ k, s.exchange = .stepping → s.flight = none → s.due = [] → s.task = some (.drain k) →
      exec (.freeze p n) s = .next waiting.frozenNow)

/-- STEP in FROZEN chooses the earliest ripe value, or else the head entry, and makes the exchange STEPPING; with neither it is refused
with NOTHING_QUEUED. RESUME in FROZEN makes it RUNNING, or STEPPING for the drain of the ripe list. In the other states both are refused
with NOT_FROZEN, without penalty (R152, R154). -/
def Obligations.StepAndResumeLeaveFrozen : Prop :=
  ∀ (s : State) (p : Port) (n : Byte), s.ready p → s.token = some p →
    (s.exchange ≠ .frozen →
      exec (.step p n) s = .next (s.answered p .notFrozen) ∧ exec (.resume p n) s = .next (s.answered p .notFrozen)) ∧
    (s.exchange = .frozen →
      (∀ k ks, s.ripe = k :: ks →
        exec (.step p n) s = .next
          { s.busyWith p .step n .taken with exchange := .stepping, task := some (.step (.ripe k)) } ∧
        exec (.resume p n) s = .next { s.busyWith p .resume n .taken with exchange := .stepping, task := some (.drain k) }) ∧
      (s.ripe = [] → exec (.resume p n) s = .next ({ s with exchange := .running }.answered p .done)) ∧
      (∀ o rest, s.ripe = [] → s.queue = o :: rest →
        exec (.step p n) s = .next
          { s.busyWith p .step n .taken with exchange := .stepping, task := some (.step (.head o.order)) }) ∧
      (s.ripe = [] → s.queue = [] → exec (.step p n) s = .next (s.answered p .nothingQueued)))

/-- INSPECT in FROZEN copies the entry at the position in ARG0 into the port's maintenance record; an echo shows length 0 and data word
0. Its refusals are NOT_FROZEN, BAD_ARGUMENT (penalised) and NOTHING_QUEUED, in that order (R157). -/
def Obligations.InspectCopiesAnEntry : Prop :=
  ∀ (s : State) (p : Port) (n : Byte), s.ready p → s.token = some p →
    let a := (s.port p).arg0
    (s.exchange ≠ .frozen → exec (.inspect p n) s = .next (s.answered p .notFrozen)) ∧
    (s.exchange = .frozen →
      (7 < a.toNat → s.bears p 4 → exec (.inspect p n) s = .next ((s.answered p .badArgument).fined p 4)) ∧
      (a.toNat ≤ 7 → s.queue.length ≤ a.toNat → exec (.inspect p n) s = .next (s.answered p .nothingQueued)) ∧
      (∀ o, a.toNat ≤ 7 → s.queue[a.toNat]? = some o →
        let shown := o.source ≠ .exchange
        let record : Inspection :=
          { position := BitVec.ofNat 3 a.toNat, queueCount := s.queue.length, ripeCount := s.ripe.length,
            source := o.source, slot := o.slot, length := if shown then o.length else 0#4,
            word0 := if shown ∧ o.length ≠ 0#4 then o.data.get ⟨0, by decide⟩ else 0#16, stamp := o.stamp,
            snapshot := o.snapshot, passed := o.passed }
        exec (.inspect p n) s = .next
          ({ s with ports := s.ports.set p { s.port p with maintenance := .inspect record } }.answered p .done)))

/-- CANCEL_HEAD in FROZEN drops the head entry: a port's with a DROPPED note to its publisher, an echo with REQUEST_TIMEOUT to the
slot's requesters, whose set is emptied and deadline disarmed. Elsewhere, and on an empty queue, it is refused without penalty (R49,
R158). Here the queues have room, and the publisher is ACTIVE or DEGRADED. -/
def Obligations.CancelHeadDropsTheHead : Prop :=
  ∀ (s : State) (p : Port) (n : Byte), s.ready p → s.token = some p →
    (s.exchange ≠ .frozen → exec (.cancelHead p n) s = .next (s.answered p .notFrozen)) ∧
    (s.exchange = .frozen → s.queue = [] → exec (.cancelHead p n) s = .next (s.answered p .nothingQueued)) ∧
    (∀ o rest, s.exchange = .frozen → s.queue = o :: rest →
      let r := s.slot o.slot
      let note := fun (why : Reason) (_ : Port) =>
        ({ reason := why, slot := o.slot, identifier := r.config.identifier, sequence := 0#16, reply := false,
           coalesced := false, isSealed := false, stamp := s.time.extractLsb' 0 16 } : Note)
      (∀ q, o.source = .port q → s.inside q = true → s.roomFor q = true →
        exec (.cancelHead p n) s = .next
          ({ s.noted (fun x => x == q) (note .dropped) with queue := rest }.answered p .done)) ∧
      (o.source = .exchange → (∀ q, r.requesters.has q = true → s.roomFor q = true) →
        exec (.cancelHead p n) s = .next
          ({ s.noted (fun x => r.requesters.has x) (note .requestTimeout) with
              queue := rest
              slots := s.slots.set o.slot { r with requesters := PortSet.empty, deadline := none } }.answered p .done)))

/-- ARM_WATCH writes the setting that its arguments hold, armed, with the capture list empty and the match count 0, or is refused with
BAD_ARGUMENT, penalised. DISARM_WATCH disarms and keeps everything else. READ_CAPTURE copies the entry at the index in ARG0, or the
empty entry, with the count and the state of the watch, into the port's maintenance record (R160, R161, R166, R176). -/
def Obligations.WatchIsArmedDisarmedAndRead : Prop :=
  ∀ (s : State) (p : Port) (n : Byte), s.ready p → s.token = some p →
    let a := (s.port p).arg0
    let b := (s.port p).arg1
    let c := (s.port p).arg2
    let kinds := c.toNat % 16
    let action := (c.toNat / 16) % 4
    (∀ (slot : Option SlotIx) (source : Option Source) (act : WatchAction),
      (slot = none ∧ a = 0x00FF#16 ∨ ∃ k, slot = some k ∧ a.toNat = k.val) →
      (source = none ∧ b = 5#16 ∨ source = some .exchange ∧ b = 4#16 ∨ ∃ q, source = some (.port q) ∧ b.toNat = q.number) →
      kinds ≠ 0 → act.code.toNat = action →
      exec (.armWatch p n) s = .next
        ({ s with watch := { armed := true, slot := slot, source := source, onLanding := c.getLsbD 0, onView := c.getLsbD 1,
                             onRequest := c.getLsbD 2, onConfig := c.getLsbD 3, action := act, captures := [],
                             matchCount := 0#16 } }.answered p .done)) ∧
    (95 < a.toNat ∧ a ≠ 0x00FF#16 ∨ 5 < b.toNat ∨ kinds = 0 ∨ 2 < action → s.bears p 4 →
      exec (.armWatch p n) s = .next ((s.answered p .badArgument).fined p 4)) ∧
    exec (.disarmWatch p n) s = .next ({ s with watch := { s.watch with armed := false } }.answered p .done) ∧
    (7 < a.toNat → s.bears p 4 → exec (.readCapture p n) s = .next ((s.answered p .badArgument).fined p 4)) ∧
    (a.toNat ≤ 7 →
      let record : CaptureReading :=
        { index := BitVec.ofNat 3 a.toNat, present := s.watch.captures.length, matchCount := s.watch.matchCount,
          armed := s.watch.armed, entry := s.watch.captures[a.toNat]? }
      exec (.readCapture p n) s = .next
        ({ s with ports := s.ports.set p { s.port p with maintenance := .capture record } }.answered p .done))

/-- A landing that matches an armed watch, in RUNNING with nothing on the due list: the match is counted and recorded with the sequence
number to be replaced; RECORD lets it land, FREEZE_AFTER lets it land and makes the exchange FREEZING, and FREEZE_BEFORE leaves the
entry at the head with its watch-passed mark and makes the exchange FROZEN. The same of the head entry that a step takes, of a due
value, of a ripe value that a step or a drain takes, which a freeze ends after the landing, and of the deferred landing of a last
RELEASE, these three recorded as landings of a pending value, which, stopped before it lands, is ripe (R36, R45, R153, R155, R162, R163,
R165). That a drain takes the slot it was directed to also where it is no longer the first of the ripe list is the model's reading (log
entry 23), and so is that a step takes the head entry it was directed to also where an earlier value of the same slot has become ripe
since (log entry 26). -/
def Obligations.WatchMeetsALanding : Prop :=
  (∀ (s : State) (o : Offer) (rest : List Offer), s.settled → s.exchange = .running → s.flight = none →
    s.restartMark = false → s.due = [] → s.queue = o :: rest → (∀ q, s.holding q o.slot = false) → o.passed = false →
    s.watch.armed = true → s.watch.onLanding = true → (s.watch.slot = none ∨ s.watch.slot = some o.slot) →
    (s.watch.source = none ∨ s.watch.source = some o.source) →
    let count := if s.watch.matchCount = 65535#16 then 65535#16 else s.watch.matchCount + 1#16
    let r := s.slot o.slot
    let entry : Capture :=
      { kind := .landing, detail := false, slot := o.slot, source := o.source, identifier := r.config.identifier,
        sequence := r.value.sequence, stamp := s.time, matchNumber := count, action := s.watch.action }
    let kept := (s.watch.captures ++ [entry]).drop (s.watch.captures.length + 1 - 8)
    let t := { s with watch := { s.watch with matchCount := count, captures := kept } }
    let landing := { t with queue := rest }.beginLanding o
    (s.watch.action = .record → exec .takeNextValue s = .next landing) ∧
    (s.watch.action = .freezeAfter → exec .takeNextValue s = .next { landing with exchange := .freezing }) ∧
    (s.watch.action = .freezeBefore →
      exec .takeNextValue s = .next { t with queue := { o with passed := true } :: rest }.frozenNow)) ∧
  (∀ (s : State) (o : Offer) (rest : List Offer), s.settled → s.exchange = .stepping → s.flight = none →
    s.restartMark = false → s.due = [] → s.task = some (.step (.head o.order)) → s.queue = o :: rest →
    (∀ q, s.holding q o.slot = false) → o.passed = false → s.catches .landing o.slot o.source →
    let t := s.recorded .landing false o.slot o.source
    let landing := { t with queue := rest }.beginLanding o
    (s.watch.action = .record → exec .takeNextValue s = .next landing) ∧
    (s.watch.action = .freezeAfter → exec .takeNextValue s = .next { landing with freezeMark := true }) ∧
    (s.watch.action = .freezeBefore →
      exec .takeNextValue s = .next { t with queue := { o with passed := true } :: rest }.frozenNow)) ∧
  (∀ (s : State) (o : Offer), s.settled → s.exchange = .running → s.flight = none → s.restartMark = false → s.due = [o] →
    s.ripe = [] → o.passed = false → s.catches .landing o.slot o.source →
    let t := s.recorded .landing true o.slot o.source
    let landing := { t with due := [] }.beginLanding o
    (s.watch.action = .record → exec .takeNextValue s = .next landing) ∧
    (s.watch.action = .freezeAfter → exec .takeNextValue s = .next { landing with exchange := .freezing }) ∧
    (s.watch.action = .freezeBefore →
      exec .takeNextValue s = .next
        { t with due := [], ripe := [o.slot]
                 slots := s.slots.set o.slot { s.slot o.slot with parked := some { o with passed := true } } }.frozenNow)) ∧
  (∀ (s : State) (k : SlotIx) (o : Offer), s.settled → s.exchange = .stepping → s.flight = none → s.restartMark = false →
    s.due = [] → (s.task = some (.step (.ripe k)) ∨ s.task = some (.drain k)) → k ∈ s.ripe → (s.slot k).parked = some o →
    o.slot = k → o.passed = false → s.catches .landing k o.source →
    let t := s.recorded .landing true k o.source
    let landing := { t with slots := s.slots.set k { s.slot k with parked := none }
                            ripe := s.ripe.filter fun j => j != k }.beginLanding o
    (s.watch.action = .record → exec .takeNextValue s = .next landing) ∧
    (s.watch.action = .freezeAfter → exec .takeNextValue s = .next { landing with freezeMark := true }) ∧
    (s.watch.action = .freezeBefore →
      exec .takeNextValue s = .next
        { t with slots := s.slots.set k { s.slot k with parked := some { o with passed := true } } }.frozenNow)) ∧
  ∀ (s : State) (p : Port) (n : Byte) (h : Hold) (o : Offer), s.ready p → s.hold p = some h →
    s.heldByOther p h.slot = false → (s.slot h.slot).parked = some o → o.slot = h.slot → (s.slot h.slot).state ≠ .retiring →
    s.exchange = .running → s.flight = none → s.restartMark = false → s.due = [] → s.ripe = [] → o.passed = false →
    s.catches .landing o.slot o.source →
    let t := { s with holds := s.holds.set p none }.recorded .landing true o.slot o.source
    let landing := ({ t with slots := s.slots.set h.slot { s.slot h.slot with parked := none } }.beginLanding o).answered p .done
    (s.watch.action = .record → exec (.release p n) s = .next landing) ∧
    (s.watch.action = .freezeAfter → exec (.release p n) s = .next { landing with exchange := .freezing }) ∧
    (s.watch.action = .freezeBefore →
      exec (.release p n) s = .next
        ({ t with ripe := [h.slot]
                  slots := s.slots.set h.slot { s.slot h.slot with parked := some { o with passed := true } } }.frozenNow.answered
          p .done))

/-- A completed refresh of a view that matches an armed watch is recorded, with FREEZE_BEFORE applied as FREEZE_AFTER; a freezing action
makes a RUNNING exchange FROZEN with nothing in flight and FREEZING with a landing in flight. The same of a new VIEW, of a REQUEST, on
an OWNER_ANSWERS or an AUTO_ANSWER slot, that begins a round or joins one, of CONFIGURE_SLOT and of RETIRE_SLOT, in every exchange
state: the act's own effect, recorded, and a freeze asked for by the table of R164 (R11, R14, R16, R93, R94, R162, R163, R164). A
RETIRE_SLOT that completes the retirement is offered with the record cleared. Here the act itself has no further consequence. -/
def Obligations.WatchMeetsAView : Prop :=
  (∀ (s : State) (p : Port) (n : Byte) (k : SlotIx), s.ready p → k.val = n.toNat →
    ((s.slot k).state = .opened ∨ (s.slot k).state = .live) → s.holding p k = true → s.exchange = .running → s.due = [] →
    s.watch.armed = true → s.watch.onView = true → (s.watch.slot = none ∨ s.watch.slot = some k) →
    (s.watch.source = none ∨ s.watch.source = some (.port p)) →
    let count := if s.watch.matchCount = 65535#16 then 65535#16 else s.watch.matchCount + 1#16
    let entry : Capture :=
      { kind := .view, detail := true, slot := k, source := .port p, identifier := (s.slot k).config.identifier,
        sequence := (s.slot k).value.sequence, stamp := s.time, matchNumber := count,
        action := if s.watch.action = .record then .record else .freezeAfter }
    let kept := (s.watch.captures ++ [entry]).drop (s.watch.captures.length + 1 - 8)
    let viewed := { s.withView p k with
      due := s.due, ripe := s.ripe
      slots := s.slots.set k { s.slot k with unread := (s.slot k).unread.erase p, missed := (s.slot k).missed.erase p } }
    let t := { viewed.answered p .done with watch := { s.watch with matchCount := count, captures := kept } }
    (s.watch.action = .record → exec (.view p n) s = .next t) ∧
    (s.watch.action ≠ .record → s.flight.isSome = true →
      exec (.view p n) s = .next { t with exchange := .freezing }) ∧
    (s.watch.action ≠ .record → s.flight = none → exec (.view p n) s = .next t.frozenNow)) ∧
  ∀ (s : State) (p : Port) (n : Byte) (k : SlotIx), s.ready p → k.val = n.toNat → s.due = [] →
    let r := s.slot k
    let src := Source.port p
    ((r.state = .opened ∨ r.state = .live) → s.catches .view k src →
      s.holding p k = false → s.landingMark k = false → s.endsQuietly p = true →
      exec (.view p n) s = .next (((s.withView p k).answered p .done).noticed .view false k src)) ∧
    ((r.state = .opened ∨ r.state = .live) → s.catches .request k src → (s.healthOf p).state = .active →
      r.config.owner ≠ p → r.config.requestDeadline ≠ 0#8 →
      let joined : Slot := { r with requesters := r.requesters.insert p }
      let begun : Slot :=
        { joined with deadline := some (s.time + BitVec.ofNat 32 (r.config.requestDeadline.toNat * 1000)) }
      let echo : Offer :=
        { source := .exchange, slot := k, length := 0#4, data := Table.fill 8 0#16, stamp := s.time, snapshot := true,
          passed := false, order := s.nextOrder }
      let ownerMay := r.config.answer = .ownerAnswers ∧ r.orphaned = false ∧ s.lostOwners.has r.config.owner = false
      let exchangeMay := r.config.answer = .autoAnswer ∧ r.state = .live
      (ownerMay → r.requesters = PortSet.empty → s.roomFor r.config.owner = true →
        exec (.request p n) s = .next
          (({ s.noted (fun q => q == r.config.owner) (fun _ => s.noteAbout .request k r.config.identifier) with
              slots := s.slots.set k begun }.answered p .done).noticed .request false k src)) ∧
      (exchangeMay → r.requesters = PortSet.empty → s.queue.length < 8 →
        exec (.request p n) s = .next
          (({ s with slots := s.slots.set k begun
                     queue := s.queue ++ [echo]
                     nextOrder := s.nextOrder + 1 }.answered p .done).noticed .request false k src)) ∧
      (ownerMay ∨ exchangeMay → r.requesters ≠ PortSet.empty →
        exec (.request p n) s = .next
          (({ s with slots := s.slots.set k joined }.answered p .done).noticed .request true k src))) ∧
    (s.token = some p → s.catches .config k src →
      (r.state = .unused →
        let a := (s.port p).arg0
        let b := (s.port p).arg1
        let c := (s.port p).arg2
        a.toNat ≤ 0x0FFF → b.toNat ≤ 4095 → 1 ≤ (c.toNat / 16) % 16 → (c.toNat / 16) % 16 ≤ 8 →
        (∀ j, j ≠ k → (s.slot j).state ≠ .unused → (s.slot j).config.identifier.toNat ≠ a.toNat) →
        ∃ g : SlotConfig,
          let fresh : Slot :=
            { config := g, state := .opened,
              value := { length := 0#4, data := Table.fill 8 0#16, sequence := 0#16, stamp := 0#32, echo := false },
              stale := false, orphaned := !s.inside g.owner, unread := PortSet.empty, missed := PortSet.empty,
              requesters := PortSet.empty, parked := none, deadline := none, freshness := none }
          exec (.configureSlot p n) s = .next
            (({ s with slots := s.slots.set k fresh }.answered p .done).noticed .config false k src) ∧
          g.identifier.toNat = a.toNat ∧ g.freshnessLimit.toNat = b.toNat ∧ g.owner.number = c.toNat % 4 ∧
          (g.kind = .event ↔ c.getLsbD 2 = true) ∧ (g.answer = .autoAnswer ↔ c.getLsbD 3 = true) ∧
          g.maxLength.toNat = (c.toNat / 16) % 16 ∧ g.requestDeadline.toNat = c.toNat / 256) ∧
      ((r.state = .opened ∨ r.state = .live) → (∃ q, s.holding q k = true) ∨ s.landingMark k = true →
        (∀ o ∈ s.queue, o.slot ≠ k) → r.parked = none → r.requesters = PortSet.empty → r.deadline = none →
        exec (.retireSlot p n) s = .next
          (({ s with slots := s.slots.set k { r with state := .retiring, freshness := none } }.answered p .done).noticed
            .config true k src)) ∧
      ((r.state = .opened ∨ r.state = .live) → (∀ q, s.holding q k = false) → s.landingMark k = false →
        (∀ o ∈ s.queue, o.slot ≠ k) → r.parked = none → r.requesters = PortSet.empty → s.roomToRetire k →
        exec (.retireSlot p n) s = .next (((s.retired k).answered p .done).noticed .config true k src)))

/-! ### The command unit and the window -/

/-- A write to COMMAND that the command unit or the Port Unit answers itself: with the unit BUSY, any code but RESET_PORT is an overrun,
with its flag set and a penalty of 4; with the unit IDLE, an undefined code is refused with BAD_COMMAND, penalised. Either penalty is
discarded for a port that is DETACHED or marked, and is a disturbance to a REJOINING one. A defined command other than RESET_PORT and
REJOIN from a port that is DETACHED or REJOINING or has its detaching mark set is refused with DETACHED, without penalty, and is a
disturbance to a REJOINING port; from any other port it waits while the exchange is RESTARTING (R119, R133, R147, R171, R173, R175).
REJOIN's own answers stand in PortRejoins. -/
def Obligations.CommandUnitAnswers : Prop :=
  (∀ (s : State) (p : Port) (w : Word), s.listens p →
     let h := s.healthOf p
     let ignored := { s with ports := s.ports.set p { s.port p with unit := { (s.port p).unit with overrun := true } } }
     let bad := s.answered p .badCommand
     ((s.port p).unit.busy.isSome = true → commandCode w ≠ 0x7F#8 →
       (s.inside p = true → h.mark = false → s.bears p 4 → exec (decodeCommandWord p w) s = .next (ignored.fined p 4)) ∧
       (h.mark = true ∨ h.state = .detached → exec (decodeCommandWord p w) s = .next ignored) ∧
       (h.mark = false → h.state = .rejoining → exec (decodeCommandWord p w) s = .next (ignored.recounted p))) ∧
     ((s.port p).unit.busy = none → (∀ c : Command, c.code ≠ commandCode w) →
       let i := Instr.undefinedCommand p (commandCode w) (commandSlot w)
       (s.inside p = true → h.mark = false → s.bears p 4 → exec i s = .next (bad.fined p 4)) ∧
       (h.mark = true ∨ h.state = .detached → exec i s = .next bad) ∧
       (h.mark = false → h.state = .rejoining → exec i s = .next (bad.recounted p)))) ∧
  ∀ (s : State) (p : Port) (c : Command) (n : Byte), s.listens p → (s.port p).unit.busy = none → c ≠ .resetPort →
    c ≠ .rejoin →
    ((s.healthOf p).state = .rejoining →
      exec (decodeCommandWord p (c.code ++ n)) s = .next ((s.answered p .detached).recounted p)) ∧
    ((s.healthOf p).state = .detached ∨ ((s.healthOf p).mark = true ∧ (s.healthOf p).state ≠ .rejoining) →
      exec (decodeCommandWord p (c.code ++ n)) s = .next (s.answered p .detached)) ∧
    (s.inside p = true → (s.healthOf p).mark = false → s.exchange = .restarting →
      exec (decodeCommandWord p (c.code ++ n)) s = .next (s.busyWith p c n .afterRestart))

/-- A write of a stored word changes what that word reads as, to the bits the word uses of what was written, and no other word of any
window, nor anything else. A write to any other offset but COMMAND is ignored (R26, R68, R169, R174, R178). -/
def Obligations.RegisterWriteStoresTheWord : Prop :=
  ∀ (s : State) (p : Port) (off : BitVec 6) (w : Word), s.listens p →
    let n := off.toNat
    let used : Word :=
      if n < 0x28 then 0xFFFF#16 else if n % 2 = 0 then 0x8FFF#16 else 0x0FFF#16
    (storedOffset off = true →
      ∃ t, exec (.registerWrite p off w) s = .next t ∧ t.windowRead p off = w &&& used ∧
        (∀ q o, q ≠ p ∨ o ≠ off → t.windowRead q o = s.windowRead q o) ∧
        { t with ports := s.ports, notes := s.notes } = s ∧
        (∀ q, (t.noteUnit q).queue = (s.noteUnit q).queue ∧ (t.noteUnit q).delivery = (s.noteUnit q).delivery) ∧
        ∀ q, (t.port q).unit = (s.port q).unit ∧ (t.port q).latch = (s.port q).latch ∧
          (t.port q).maintenance = (s.port q).maintenance ∧ (t.port q).lastRead = (s.port q).lastRead) ∧
    (storedOffset off = false → n ≠ 0 → n ≠ 0x25 → exec (.registerWrite p off w) s = .next s)

/-- A write of ATTENTION ENABLE stores its NOTES and DONE bits and nothing else, and the attention output follows at once: it is driven
low exactly while NOTES is on and a note is queued, or DONE is on and the done flag set. A device reset sets the enables of every port
off, and a port reset those of its port. No other event changes them (R82, R83, R178). -/
def Obligations.AttentionFollowsItsEnables : Prop :=
  (∀ (s : State) (p : Port) (w : Word), s.listens p →
    let t := { s with ports := s.ports.set p { s.port p with notesEnable := w.getLsbD 0, doneEnable := w.getLsbD 1 } }
    exec (.attentionEnableWrite p w) s = .next t ∧ t.windowRead p 0x25#6 = w &&& 3#16 ∧
    (t.attention p = true ↔
      (w.getLsbD 0 = true ∧ (s.noteUnit p).queue ≠ []) ∨ (w.getLsbD 1 = true ∧ (s.port p).unit.done = true))) ∧
  (∀ (s : State) (p : Port) (n : Byte),
    let off := fun c : Instr => ∃ t, exec c s = .next t ∧ (t.port p).notesEnable = false ∧ (t.port p).doneEnable = false
    off .deviceReset ∧
    (s.listens p → off (.portReset p) ∧ (s.inHand p .resetPort = false → off (.resetPort p n)))) ∧
  ∀ (c : Instr) (s t : State) (p : Port), c.wellFormed = true → exec c s = .next t →
    (t.port p).notesEnable ≠ (s.port p).notesEnable ∨ (t.port p).doneEnable ≠ (s.port p).doneEnable →
    (∃ w, c = .attentionEnableWrite p w) ∨
      ((c = .deviceReset ∨ c = .portReset p ∨ ∃ n, c = .resetPort p n) ∧
        (t.port p).notesEnable = false ∧ (t.port p).doneEnable = false)

/-- A read of RESULT returns the word and clears the done and overrun flags, and a read of TIME LOW returns the low half of the time
base and latches the high half, which TIME HIGH then reads. Neither changes anything else (R109, R172). Every shown word reads what its
layout says: RESULT, PORT STATUS and HEALTH SCORE, the view window, the note words and the maintenance window (R63, R64, R81, R175,
R177, R178, R179). With RESET_n or the port's PxRST_n low no word is driven (R168). The word returned stands in the model's own field
lastRead (log entry 5). -/
def Obligations.ReadsOfResultAndTime : Prop :=
  (∀ (s : State) (p : Port), s.listens p →
    let u := s.port p
    exec (.resultRead p) s = .next
      { s with ports := s.ports.set p { u with unit := { u.unit with done := false, overrun := false },
                                               lastRead := some (s.windowRead p 0x04#6) } } ∧
    (let t := { s with ports := s.ports.set p { u with timeLatch := s.time.extractLsb' 16 16,
                                                       lastRead := some (s.windowRead p 0x07#6) } }
     exec (.timeLowRead p) s = .next t ∧ t.windowRead p 0x08#6 ++ s.windowRead p 0x07#6 = s.time)) ∧
  ∀ (s : State) (p : Port), s.StatusWords p ∧ s.ViewWords p ∧ s.NoteWords p ∧ s.MaintenanceWords p ∧
    (s.listens p → ∀ off, s.dataDriven p off = some (s.windowRead p off)) ∧
    (s.inReset = true ∨ s.lineLow.has p = true → ∀ off, s.dataDriven p off = none)

/-! ### Resets -/

/-- DEVICE_RESET puts every record in its device reset condition, whatever the state, and holds the part in reset, in which no other
event changes anything, until DEVICE_RESET_RELEASE; the lines PxRST_n alone go on following the board, and one that is low at the
release keeps its port in reset (R181). The model's queue of events and its count of free choices stay (log entries 1 and 3), and the
level of a line has its one home in the model's field lineLow (log entry 21). -/
def Obligations.DeviceResetClearsAndHolds : Prop :=
  ∀ s : State,
    exec .deviceReset s =
      .next { State.reset with inReset := true, lineLow := s.lineLow, pending := s.pending, freeCount := s.freeCount } ∧
    exec .deviceResetRelease s = .next { s with inReset := false } ∧
    (s.inReset = true →
      (∀ p, (s.lineLow.has p = false → exec (.portReset p) s = .next { s with lineLow := s.lineLow.insert p }) ∧
        (s.lineLow.has p = true → exec (.portReset p) s = .next { s with lineLow := s.lineLow.erase p }) ∧
        s.attention p = false) ∧
      ∀ c : Instr, c ≠ .deviceReset → c ≠ .deviceResetRelease → (∀ p, c ≠ .portReset p) → exec c s = .next s)

/-- A port reset, by line or by RESET_PORT, clears what belongs to the port in every block and leaves everything else: its Port Unit,
its hold, its entries, its notes and filters, its places in the sets (a deadline disarmed where a requester set empties), its token; a
REJOINING port's count begins again. RESET_PORT leaves the command unit BUSY, joins one that is in progress, and is finished by
RESET_PORT_DONE with DONE. While PxRST_n stays low the port's bus cycles do nothing and its attention line is released; the rise changes
the level alone (R133, R168, R180, R182, R183, R184). Here the end of the port's hold has no consequence. That one event stands for
either edge of the line is the model's choice (log entry 21). With no RESET_PORT in hand RESET_PORT_DONE does not take place (log entry
4). That a RESET_PORT which joins changes nothing is the model's reading (log entry 18), and so is that a landing in flight keeps the
port among the requesters it has served (log entry 15). -/
def Obligations.PortResetClearsThePort : Prop :=
  ∀ (s : State) (p : Port) (n : Byte), s.settled →
    let cleared := fun busy : Option Busy =>
      let t := { s with
        ports := s.ports.set p
          { arg0 := 0#16, arg1 := 0#16, arg2 := 0#16, composeLength := 0#16, composeData := Table.fill 8 0#16,
            unit := { busy := busy, result := .done, done := false, overrun := false }, latch := none,
            notesEnable := false, doneEnable := false, timeLatch := 0#16, maintenance := .none, lastRead := none }
        holds := s.holds.set p none
        queue := s.queue.filter fun o => o.source != .port p
        notes := s.notes.set p
          { s.noteUnit p with queue := [], filters := Table.fill 8 { identifier := 0#12, mask := 0#12, enabled := false } }
        slots := s.slots.map fun r : Slot =>
          { r with unread := r.unread.erase p, missed := r.missed.erase p, requesters := r.requesters.erase p,
                   deadline := if r.requesters.has p ∧ r.requesters.erase p = PortSet.empty then none else r.deadline }
        token := if s.token = some p then none else s.token }
      if (s.healthOf p).state = .rejoining then t.recounted p else t
    (s.lineLow.has p = false → s.endsQuietly p = true →
      exec (.portReset p) s = .next { cleared none with lineLow := s.lineLow.insert p }) ∧
    (s.lineLow.has p = false → s.endsQuietly p = true → s.inHand p .resetPort = false →
      exec (.resetPort p n) s = .next (cleared (some ⟨.resetPort, n, .taken⟩))) ∧
    (s.lineLow.has p = true → s.attention p = false ∧
      exec (.portReset p) s = .next { s with lineLow := s.lineLow.erase p } ∧
      (∀ w : Word, exec (decodeCommandWord p w) s = .next s ∧ exec (.attentionEnableWrite p w) s = .next s ∧
        ∀ off, exec (.registerWrite p off w) s = .next s) ∧
      exec (.resultRead p) s = .next s ∧ exec (.timeLowRead p) s = .next s ∧ exec (.noteTake p) s = .next s) ∧
    (s.inHand p .resetPort = true → exec (.resetPort p n) s = .next s ∧
      exec (.resetPortDone p) s = .next (s.answered p .done)) ∧
    (s.inHand p .resetPort = false → exec (.resetPortDone p) s = .next s)

/-- RESTART is taken in every exchange state but RESTARTING: the restart mark is set, and the command stays BUSY. With the mark set and
no landing in flight the restart begins: configured slots are OPEN with their configuration, RETIRING ones UNUSED; queues, due and ripe
lists, holds, notes, requesters and timers are gone; every port is ACTIVE with score 0 and delivering; a FREEZE, STEP, RESUME or EXPEL
in hand is done. Kept are filters, hold timeout, watch, policies, token and time (R25, R136, R144, R145). That every EXPEL in hand is
done, that the beginning is an event of its own, and that the token stays also with a port whose detaching mark is set and step 1 not
taken, is the model's reading (log entries 16, 17 and 22). -/
def Obligations.RestartBegins : Prop :=
  (∀ (s : State) (p : Port) (n : Byte), s.ready p → s.token = some p →
     exec (.restart p n) s = .next { s.busyWith p .restart n .taken with restartMark := true }) ∧
  ∀ s : State, s.settled → s.restartMark = true → s.flight = none → s.exchange ≠ .restarting →
    ∃ t, exec .restartBegin s = .next t ∧
      (∀ k,
        let kept := (s.slot k).state = .opened ∨ (s.slot k).state = .live
        t.slot k =
          { config := if kept then (s.slot k).config else
              { identifier := 0#12, owner := .a, kind := .state, answer := .ownerAnswers, maxLength := 1#4,
                freshnessLimit := 0#12, requestDeadline := 0#8 },
            state := if kept then .opened else .unused,
            value := { length := 0#4, data := Table.fill 8 0#16, sequence := 0#16, stamp := 0#32, echo := false },
            stale := false, orphaned := false, unread := PortSet.empty, missed := PortSet.empty,
            requesters := PortSet.empty, parked := none, deadline := none, freshness := none }) ∧
      t.queue = [] ∧ t.due = [] ∧ t.ripe = [] ∧ t.flight = none ∧ t.lostOwners = PortSet.empty ∧
      (∀ p, t.hold p = none ∧ t.noteUnit p = { s.noteUnit p with queue := [], delivery := .delivering } ∧
        t.healthOf p = { state := .active, score := 0, warn := false, cause := .none, mark := false, rejoinCount := 0,
                         quiet := none, autoRejoin := (s.healthOf p).autoRejoin } ∧
        (s.waitsForFreeze p = true ∨ (∃ q b, s.phaseOf p = some (.expelling q b)) →
          (t.port p).unit.busy = none ∧ (t.port p).unit.result = .done ∧ (t.port p).unit.done = true) ∧
        ((s.port p).unit.busy = none → t.port p = s.port p)) ∧
      t.detaching = none ∧ t.detachQueue = [] ∧ t.exchange = .restarting ∧ t.restartMark = true ∧ t.freezeMark = false ∧
      t.task = none ∧ t.holdTimeout = s.holdTimeout ∧ t.watch = s.watch ∧ t.token = s.token ∧ t.time = s.time ∧
      t.prescaler = s.prescaler

/-- The restart ends in RUNNING with the mark clear, and every RESTART in hand is done. A port's command that waited is then taken by
its block as if written at that moment; here at most one port's waits (R146, R147). That it is taken within the event that ends the
restart is the model's choice (log entry 25). -/
def Obligations.RestartEnds : Prop :=
  ∀ s : State, s.settled → s.exchange = .restarting →
    let t := { s with restartMark := false, exchange := .running }.finished fun q => s.inHand q .restart
    ((∀ q, s.phaseOf q ≠ some .afterRestart) → exec .restartEnd s = .next t) ∧
    (∀ (p : Port) (c : Command) (n : Byte), (s.port p).unit.busy = some ⟨c, n, .afterRestart⟩ → c ≠ .resetPort →
      (s.port p).unit.done = false → s.inside p = true → (s.healthOf p).mark = false → s.lineLow.has p = false →
      (∀ q, q ≠ p → s.phaseOf q ≠ some .afterRestart) →
      let u := t.port p
      let idle := { t with ports := t.ports.set p { u with unit := { u.unit with busy := none } } }
      exec .restartEnd s = exec (decodeCommandWord p (c.code ++ n)) idle)

/-! ### Health -/

/-- How the Health Unit takes a penalty and a credit for a port, by health state and detaching mark. A penalty that would carry the
score past 255 begins a detachment: mark and cause are set, and a command in hand, other than RESET_PORT, is answered DETACHED (R119,
R120, R124, R133). -/
def Obligations.PenaltiesAndCredits : Prop :=
  ∀ (s : State) (p : Port) (n : Nat),
    let h := s.healthOf p
    (h.mark = true → s.takePenalty p n = s ∧ s.takeCredit p = s) ∧
    (h.mark = false →
      (s.inside p = true →
        s.takeCredit p = s.rewarded p ∧ (s.bears p n → s.takePenalty p n = s.fined p n) ∧
        (255 < h.score + n →
          let marked := { s with health := s.health.set p { h with mark := true, cause := .score } }
          (((s.port p).unit.busy = none ∨ s.inHand p .resetPort = true) → s.takePenalty p n = marked) ∧
          (∀ b, (s.port p).unit.busy = some b → b.command ≠ .resetPort →
            s.takePenalty p n = marked.answered p .detached))) ∧
      (h.state = .detached → s.takePenalty p n = s ∧ s.takeCredit p = s) ∧
      (h.state = .rejoining → s.takePenalty p n = s.recounted p ∧ s.takeCredit p = s))

/-- EXPEL, in every case: BAD_ARGUMENT for no port or for itself; a detachment begun with cause EXPELLED, the command BUSY till its end;
the wait for a detachment under way; a REJOINING port sent back to DETACHED; DONE for a DETACHED port (R124, R130). The batch that the
mark joins is the model's (log entry 6). -/
def Obligations.ExpelByHealthState : Prop :=
  ∀ (s : State) (p : Port) (n : Byte), s.ready p → s.token = some p →
    let a := (s.port p).arg0
    (3 < a.toNat ∨ a.toNat = p.number → s.bears p 4 →
      exec (.expel p n) s = .next ((s.answered p .badArgument).fined p 4)) ∧
    ∀ q : Port, q ≠ p → a.toNat = q.number →
      let h := s.healthOf q
      (h.mark = true → exec (.expel p n) s = .next (s.busyWith p .expel n (.expelling q false))) ∧
      (h.mark = false →
        (s.inside q = true →
          let t := { s.busyWith p .expel n (.expelling q true) with
            health := s.health.set q { h with mark := true, cause := .expelled }
            detachQueue := s.detachQueue ++ [[q]] }
          ((s.port q).unit.busy = none ∨ s.inHand q .resetPort = true → exec (.expel p n) s = .next t) ∧
          (∀ b, (s.port q).unit.busy = some b → b.command ≠ .resetPort →
            exec (.expel p n) s = .next (t.answered q .detached))) ∧
        (h.state = .rejoining →
          exec (.expel p n) s = .next
            ({ s with health := s.health.set q
                        { h with state := .detached, cause := .expelled, rejoinCount := 0, quiet := none } }.answered
              p .done)) ∧
        (h.state = .detached → exec (.expel p n) s = .next (s.answered p .done)))

/-- The detachment of a port whose mark is set, taken to its end in one run, from its beginning or from the step it has reached: R129
holds of the port, and its mark is clear, its score 0 and WARN clear; it holds no token, has no entry and no due or pending value, is a
lost owner and is CLOSED; its slots are ORPHANED; it is DETACHED, or REJOINING where the cause is SCORE and the auto-rejoin policy on.
An EXPEL of the port in hand is finished with DONE, and one that waited sends a port that has just rejoined back to DETACHED with cause
EXPELLED (R130). Its first step alone frees the token and leaves the rest to be done (R48, R124, R125, R126, R127, R129). A run that
goes on takes the steps left, and what the steps before have cleared stays clear. The operand that splits the steps is the model's (log
entry 11), and so is that an EXPEL that waits ends with its issuer's command unit (log entry 24). -/
def Obligations.DetachmentRemovesThePort : Prop :=
  (∀ (s : State) (p : Port) (st : DetachStep), s.settled → s.RequesterLaw → (s.healthOf p).mark = true →
    (s.detaching = some (p, st) ∨ (s.detaching = none ∧ st = .token ∧ ∃ ps rest, s.detachQueue = ps :: rest ∧ p ∈ ps)) →
    let left := fun x : DetachStep => stepPlace st ≤ stepPlace x
    ∃ t, exec (.detachment p .orphan) s = .next t ∧ t.detaching = none ∧
      (let h := t.healthOf p
       let rejoins := (s.healthOf p).cause = .score ∧ (s.healthOf p).autoRejoin = true
       let expelled := ∃ q, s.phaseOf q = some (.expelling p false)
       h.score = 0 ∧ h.warn = false ∧ h.mark = false ∧ h.rejoinCount = 0 ∧ h.autoRejoin = (s.healthOf p).autoRejoin ∧
        (¬ expelled → h.cause = (s.healthOf p).cause ∧ (¬ rejoins → h.state = .detached ∧ h.quiet = none) ∧
          (rejoins → h.state = .rejoining ∧ h.quiet = some (s.time + 256#32))) ∧
        ((∃ q, q ≠ p ∧ s.phaseOf q = some (.expelling p false) ∧ (s.healthOf q).mark = false ∧
            (t.healthOf q).mark = false) →
          h.state = .detached ∧ h.quiet = none ∧ h.cause = if rejoins then .expelled else (s.healthOf p).cause)) ∧
      (∀ q, q ≠ p → (∃ began, s.phaseOf q = some (.expelling p began)) → (s.healthOf q).mark = false →
        (t.healthOf q).mark = false →
        (t.port q).unit.busy = none ∧ (t.port q).unit.result = .done ∧ (t.port q).unit.done = true) ∧
      t.token = (if left .token ∧ s.token = some p then none else s.token) ∧
      t.holds = (if left .hold then s.holds.set p none else s.holds) ∧
      t.queue = (if left .publications then s.queue.filter fun o => o.source != .port p else s.queue) ∧
      (left .publications ∨ ((∀ o ∈ s.due, o.source ≠ .port p) ∧ ∀ k o, (s.slot k).parked = some o → o.source ≠ .port p) →
        (∀ o ∈ t.due, o.source ≠ .port p) ∧ ∀ k o, (t.slot k).parked = some o → o.source ≠ .port p) ∧
      t.lostOwners = (if left .requests then s.lostOwners.insert p else s.lostOwners) ∧
      (left .requests ∨ (∀ k, (s.slot k).requesters.has p = false) → ∀ k, (t.slot k).requesters.has p = false) ∧
      (left .notes ∨ ((s.noteUnit p).queue = [] ∧ (s.noteUnit p).delivery = .closed) →
        (t.noteUnit p).queue = [] ∧ (t.noteUnit p).delivery = .closed) ∧
      (left .notes ∨ (∀ k, (s.slot k).unread.has p = false ∧ (s.slot k).missed.has p = false) →
        ∀ k, (t.slot k).unread.has p = false ∧ (t.slot k).missed.has p = false) ∧
      (∀ k, let r := t.slot k
        r.config.owner = p → r.state ≠ .unused →
          r.orphaned = true ∧ (left .requests → r.requesters = PortSet.empty ∧ r.deadline = none)) ∧
      (∀ q, (t.noteUnit q).filters = (s.noteUnit q).filters) ∧ t.time = s.time ∧ t.prescaler = s.prescaler ∧
      t.holdTimeout = s.holdTimeout ∧ t.restartMark = s.restartMark) ∧
  ∀ (s : State) (p : Port) (ps : List Port) (rest : List (List Port)), s.settled → s.detaching = none →
    s.detachQueue = ps :: rest → p ∈ ps → (s.healthOf p).mark = true →
    ∃ queue, exec (.detachment p .token) s = .next
        { s with token := if s.token = some p then none else s.token, detaching := some (p, .hold), detachQueue := queue } ∧
      ∀ q, q ∈ queue.flatten ↔ q ∈ rest.flatten ∨ (q ∈ ps ∧ q ≠ p)

/-- REJOIN makes a DETACHED port REJOINING with its count 0 and a first quiet interval of 256 µs, and is refused with NOT_DETACHED,
without penalty, from an ACTIVE or DEGRADED one. From a REJOINING or marked port the Port Unit refuses it with DETACHED, a disturbance
to a REJOINING one, and from any other it waits while the exchange is RESTARTING (R147, R171). An interval's end raises the count and
arms the next; the sixteenth makes the port ACTIVE: score 0, cause NONE, DELIVERING, no lost owner, its slots' ORPHANED flags clear
(R131, R133, R134). The end of an interval is an event of its own (log entry 8). -/
def Obligations.PortRejoins : Prop :=
  ∀ (s : State) (p : Port) (n : Byte), s.settled →
    let h := s.healthOf p
    ((s.port p).unit.busy = none → s.lineLow.has p = false →
      (h.state = .rejoining → exec (.rejoin p n) s = .next ((s.answered p .detached).recounted p)) ∧
      (h.mark = true → h.state ≠ .rejoining → exec (.rejoin p n) s = .next (s.answered p .detached)) ∧
      (h.mark = false → h.state ≠ .rejoining → s.exchange = .restarting →
        exec (.rejoin p n) s = .next (s.busyWith p .rejoin n .afterRestart))) ∧
    ((s.port p).unit.busy = none → s.lineLow.has p = false → s.exchange ≠ .restarting → h.mark = false →
      (s.inside p = true → exec (.rejoin p n) s = .next (s.answered p .notDetached)) ∧
      (h.state = .detached →
        exec (.rejoin p n) s = .next
          ({ s with health := s.health.set p
                      { h with state := .rejoining, rejoinCount := 0, quiet := some (s.time + 256#32) } }.answered
            p .done))) ∧
    (∀ e, h.state = .rejoining → h.quiet = some e → s.exchange = .running ∨ s.exchange = .freezing → s.time = e →
      (h.rejoinCount + 1 < 16 →
        exec (.quietIntervalEnd p) s = .next
          { s with health := s.health.set p { h with rejoinCount := h.rejoinCount + 1, quiet := some (e + 256#32) } }) ∧
      (h.rejoinCount + 1 = 16 →
        exec (.quietIntervalEnd p) s = .next
          { s with
            health := s.health.set p
              { h with state := .active, score := 0, warn := false, cause := .none, rejoinCount := 0, quiet := none }
            notes := s.notes.set p { s.noteUnit p with delivery := .delivering }
            lostOwners := s.lostOwners.erase p
            slots := s.slots.map fun r : Slot => { r with orphaned := r.orphaned && r.config.owner != p } })) ∧
    (s.exchange = .frozen ∨ s.exchange = .stepping ∨ s.exchange = .restarting → exec (.quietIntervalEnd p) s = .next s)

/-! ### Time -/

/-- A cycle of CLK advances the prescaler, and with its wrap from 15 to 0 the time base, in RUNNING and FREEZING alone, and no timer
expires in another state. Device reset sets both counts to 0 and leaves them ready to run, and they do not move while RESET_n is low.
The time base does not pass the expiry time of a timer that its block has not taken, in any step (R108). No event but a cycle of CLK,
SET_TIME (which the end of a restart may release) and a device reset changes either (R106, R107). That an expiry is an event of its own,
which takes no place where its condition does not hold, and that a cycle waits for it, is the model's (log entries 4 and 8). -/
def Obligations.TimeBaseRunsOnlyWhenItMay : Prop :=
  (∀ s : State, s.settled →
    (s.exchange = .running ∨ s.exchange = .freezing →
      (s.prescaler ≠ 15#4 → exec .timeBaseAdvance s = .next { s with prescaler := s.prescaler + 1#4 }) ∧
      (s.prescaler = 15#4 →
        (s.timerDue = false → exec .timeBaseAdvance s = .next { s with prescaler := 0#4, time := s.time + 1#32 }) ∧
        (s.timerDue = true → exec .timeBaseAdvance s = .next s))) ∧
    (s.exchange = .frozen ∨ s.exchange = .stepping ∨ s.exchange = .restarting → exec .timeBaseAdvance s = .next s ∧
      (∀ p : Port, exec (.holdExpiry p) s = .next s ∧ exec (.quietIntervalEnd p) s = .next s) ∧
      ∀ k : SlotIx, exec (.deadlineExpiry k) s = .next s ∧ exec (.freshnessExpiry k) s = .next s)) ∧
  (∀ s : State,
    (∃ t, exec .deviceReset s = .next t ∧ t.time = 0#32 ∧ t.prescaler = 0#4 ∧ t.exchange = .running) ∧
    (s.inReset = true → exec .timeBaseAdvance s = .next s)) ∧
  (∀ s t : State, s.TimerLaw → step s = .next t → t.TimerLaw) ∧
  ∀ (c : Instr) (s t : State), c.wellFormed = true → exec c s = .next t → t.time ≠ s.time ∨ t.prescaler ≠ s.prescaler →
    (c = .timeBaseAdvance ∧ (s.exchange = .running ∨ s.exchange = .freezing)) ∨ (∃ p n, c = .setTime p n) ∨
      c = .restartEnd ∨ c = .deviceReset
end

