-- ==== Sys2Proof/Laws/State.lean ====
section
/-! SUPPORT. The fields of the state after each single update: what the update leaves alone, and what a reader of the updated
record finds. Each lemma is one field of one update. -/

namespace Sys2Proof

/-! ### Records for the ports, and tables -/

@[simp] theorem PerPort.get_set_self {α : Type} (t : PerPort α) (p : Port) (x : α) : (t.set p x).get p = x := by
  cases p <;> rfl

theorem PerPort.get_set_ne {α : Type} (t : PerPort α) {p q : Port} (h : q ≠ p) (x : α) : (t.set p x).get q = t.get q := by
  cases p <;> cases q <;> first | rfl | exact absurd rfl h

theorem PerPort.get_set {α : Type} (t : PerPort α) (p q : Port) (x : α) :
    (t.set p x).get q = if q = p then x else t.get q := by
  cases p <;> cases q <;> rfl

@[simp] theorem PerPort.get_ofFn {α : Type} (f : Port → α) (p : Port) : (PerPort.ofFn f).get p = f p := by cases p <;> rfl

@[simp] theorem PerPort.get_fill {α : Type} (x : α) (p : Port) : (PerPort.fill x).get p = x := by cases p <;> rfl

@[simp] theorem PerPort.set_get_self {α : Type} (t : PerPort α) (p : Port) : t.set p (t.get p) = t := by cases p <;> rfl

@[simp] theorem PerPort.set_set {α : Type} (t : PerPort α) (p : Port) (x y : α) : (t.set p x).set p y = t.set p y := by
  cases p <;> rfl

theorem PerPort.ext_get {α : Type} {t u : PerPort α} (h : ∀ p, t.get p = u.get p) : t = u := by
  cases t; cases u
  have ha := h .a
  have hb := h .b
  have hc := h .c
  have hd := h .d
  simp only [PerPort.get] at ha hb hc hd
  subst ha hb hc hd
  rfl

theorem Port.forall_all {P : Port → Prop} : (∀ p, P p) ↔ P .a ∧ P .b ∧ P .c ∧ P .d :=
  ⟨fun h => ⟨h _, h _, h _, h _⟩, fun h p => by obtain ⟨a, b, c, d⟩ := h; cases p <;> assumption⟩

@[simp] theorem Port.mem_all (p : Port) : p ∈ Port.all := by cases p <;> decide

@[simp] theorem PortSet.has_empty (p : Port) : PortSet.empty.has p = false := by cases p <;> rfl

theorem PortSet.has_insert (x : PortSet) (p q : Port) : (x.insert p).has q = (q == p || x.has q) := by
  cases p <;> cases q <;> rfl

theorem PortSet.has_erase (x : PortSet) (p q : Port) : (x.erase p).has q = (q != p && x.has q) := by
  cases p <;> cases q <;> rfl

@[simp] theorem PortSet.has_union (x y : PortSet) (p : Port) : (x.union y).has p = (x.has p || y.has p) := by
  cases p <;> rfl

@[simp] theorem PortSet.has_ofFn (f : Port → Bool) (p : Port) : PortSet.has (PerPort.ofFn f) p = f p := by cases p <;> rfl

theorem PortSet.isEmpty_iff (x : PortSet) : x.isEmpty = true ↔ ∀ p, x.has p = false := by
  obtain ⟨a, b, c, d⟩ := x
  rw [Port.forall_all]
  cases a <;> cases b <;> cases c <;> cases d <;> decide

@[simp] theorem Table.get_set_self {n : Nat} {α : Type} (t : Table n α) (i : Fin n) (x : α) : (t.set i x).get i = x := by
  exact List.getElem_set_self _

theorem Table.get_set_ne {n : Nat} {α : Type} (t : Table n α) {i j : Fin n} (h : j ≠ i) (x : α) :
    (t.set i x).get j = t.get j := by
  have h' : i.val ≠ j.val := fun e => h (Fin.ext e.symm)
  exact List.getElem_set_ne h' _

theorem Table.get_set {n : Nat} {α : Type} (t : Table n α) (i j : Fin n) (x : α) :
    (t.set i x).get j = if j = i then x else t.get j := by
  split
  · subst_vars; exact Table.get_set_self t _ x
  · exact Table.get_set_ne t ‹_› x

@[simp] theorem Table.get_map {n : Nat} {α β : Type} (f : α → β) (t : Table n α) (i : Fin n) :
    (t.map f).get i = f (t.get i) := by
  exact List.getElem_map f

@[simp] theorem Table.get_fill {n : Nat} {α : Type} (x : α) (i : Fin n) : (Table.fill n x).get i = x := by
  simp [Table.get, Table.fill]

theorem Table.ext_get {n : Nat} {α : Type} {t u : Table n α} (h : ∀ i, t.get i = u.get i) : t = u := by
  obtain ⟨r, hr⟩ := t
  obtain ⟨v, hv⟩ := u
  congr 1
  apply List.ext_getElem (hr.trans hv.symm)
  intro i h1 _
  exact h ⟨i, hr ▸ h1⟩

namespace Machine

/-! ### What each update leaves alone -/

section

variable (s : State)

@[simp] theorem State.modPort_pending (q : Port) (f : PortUnit → PortUnit) : (s.modPort q f).pending = s.pending := rfl
@[simp] theorem State.modPort_inReset (q : Port) (f : PortUnit → PortUnit) : (s.modPort q f).inReset = s.inReset := rfl
@[simp] theorem State.modPort_lineLow (q : Port) (f : PortUnit → PortUnit) : (s.modPort q f).lineLow = s.lineLow := rfl
@[simp] theorem State.modPort_slots (q : Port) (f : PortUnit → PortUnit) : (s.modPort q f).slots = s.slots := rfl
@[simp] theorem State.modPort_queue (q : Port) (f : PortUnit → PortUnit) : (s.modPort q f).queue = s.queue := rfl
@[simp] theorem State.modPort_due (q : Port) (f : PortUnit → PortUnit) : (s.modPort q f).due = s.due := rfl
@[simp] theorem State.modPort_ripe (q : Port) (f : PortUnit → PortUnit) : (s.modPort q f).ripe = s.ripe := rfl
@[simp] theorem State.modPort_flight (q : Port) (f : PortUnit → PortUnit) : (s.modPort q f).flight = s.flight := rfl
@[simp] theorem State.modPort_nextOrder (q : Port) (f : PortUnit → PortUnit) : (s.modPort q f).nextOrder = s.nextOrder := rfl
@[simp] theorem State.modPort_holds (q : Port) (f : PortUnit → PortUnit) : (s.modPort q f).holds = s.holds := rfl
@[simp] theorem State.modPort_holdTimeout (q : Port) (f : PortUnit → PortUnit) : (s.modPort q f).holdTimeout = s.holdTimeout := rfl
@[simp] theorem State.modPort_notes (q : Port) (f : PortUnit → PortUnit) : (s.modPort q f).notes = s.notes := rfl
@[simp] theorem State.modPort_lostOwners (q : Port) (f : PortUnit → PortUnit) : (s.modPort q f).lostOwners = s.lostOwners := rfl
@[simp] theorem State.modPort_time (q : Port) (f : PortUnit → PortUnit) : (s.modPort q f).time = s.time := rfl
@[simp] theorem State.modPort_prescaler (q : Port) (f : PortUnit → PortUnit) : (s.modPort q f).prescaler = s.prescaler := rfl
@[simp] theorem State.modPort_health (q : Port) (f : PortUnit → PortUnit) : (s.modPort q f).health = s.health := rfl
@[simp] theorem State.modPort_detaching (q : Port) (f : PortUnit → PortUnit) : (s.modPort q f).detaching = s.detaching := rfl
@[simp] theorem State.modPort_detachQueue (q : Port) (f : PortUnit → PortUnit) : (s.modPort q f).detachQueue = s.detachQueue := rfl
@[simp] theorem State.modPort_reports (q : Port) (f : PortUnit → PortUnit) : (s.modPort q f).reports = s.reports := rfl
@[simp] theorem State.modPort_token (q : Port) (f : PortUnit → PortUnit) : (s.modPort q f).token = s.token := rfl
@[simp] theorem State.modPort_exchange (q : Port) (f : PortUnit → PortUnit) : (s.modPort q f).exchange = s.exchange := rfl
@[simp] theorem State.modPort_restartMark (q : Port) (f : PortUnit → PortUnit) : (s.modPort q f).restartMark = s.restartMark := rfl
@[simp] theorem State.modPort_freezeMark (q : Port) (f : PortUnit → PortUnit) : (s.modPort q f).freezeMark = s.freezeMark := rfl
@[simp] theorem State.modPort_task (q : Port) (f : PortUnit → PortUnit) : (s.modPort q f).task = s.task := rfl
@[simp] theorem State.modPort_watch (q : Port) (f : PortUnit → PortUnit) : (s.modPort q f).watch = s.watch := rfl
@[simp] theorem State.modPort_freeCount (q : Port) (f : PortUnit → PortUnit) : (s.modPort q f).freeCount = s.freeCount := rfl
@[simp] theorem State.slot_modPort (q : Port) (f : PortUnit → PortUnit) (k : SlotIx) : (s.modPort q f).slot k = s.slot k := rfl
@[simp] theorem State.noteUnit_modPort (q : Port) (f : PortUnit → PortUnit) (p : Port) : (s.modPort q f).noteUnit p = s.noteUnit p := rfl
@[simp] theorem State.healthOf_modPort (q : Port) (f : PortUnit → PortUnit) (p : Port) : (s.modPort q f).healthOf p = s.healthOf p := rfl
@[simp] theorem State.hold_modPort (q : Port) (f : PortUnit → PortUnit) (p : Port) : (s.modPort q f).hold p = s.hold p := rfl

@[simp] theorem State.modSlot_pending (j : SlotIx) (f : Slot → Slot) : (s.modSlot j f).pending = s.pending := rfl
@[simp] theorem State.modSlot_inReset (j : SlotIx) (f : Slot → Slot) : (s.modSlot j f).inReset = s.inReset := rfl
@[simp] theorem State.modSlot_lineLow (j : SlotIx) (f : Slot → Slot) : (s.modSlot j f).lineLow = s.lineLow := rfl
@[simp] theorem State.modSlot_ports (j : SlotIx) (f : Slot → Slot) : (s.modSlot j f).ports = s.ports := rfl
@[simp] theorem State.modSlot_queue (j : SlotIx) (f : Slot → Slot) : (s.modSlot j f).queue = s.queue := rfl
@[simp] theorem State.modSlot_due (j : SlotIx) (f : Slot → Slot) : (s.modSlot j f).due = s.due := rfl
@[simp] theorem State.modSlot_ripe (j : SlotIx) (f : Slot → Slot) : (s.modSlot j f).ripe = s.ripe := rfl
@[simp] theorem State.modSlot_flight (j : SlotIx) (f : Slot → Slot) : (s.modSlot j f).flight = s.flight := rfl
@[simp] theorem State.modSlot_nextOrder (j : SlotIx) (f : Slot → Slot) : (s.modSlot j f).nextOrder = s.nextOrder := rfl
@[simp] theorem State.modSlot_holds (j : SlotIx) (f : Slot → Slot) : (s.modSlot j f).holds = s.holds := rfl
@[simp] theorem State.modSlot_holdTimeout (j : SlotIx) (f : Slot → Slot) : (s.modSlot j f).holdTimeout = s.holdTimeout := rfl
@[simp] theorem State.modSlot_notes (j : SlotIx) (f : Slot → Slot) : (s.modSlot j f).notes = s.notes := rfl
@[simp] theorem State.modSlot_lostOwners (j : SlotIx) (f : Slot → Slot) : (s.modSlot j f).lostOwners = s.lostOwners := rfl
@[simp] theorem State.modSlot_time (j : SlotIx) (f : Slot → Slot) : (s.modSlot j f).time = s.time := rfl
@[simp] theorem State.modSlot_prescaler (j : SlotIx) (f : Slot → Slot) : (s.modSlot j f).prescaler = s.prescaler := rfl
@[simp] theorem State.modSlot_health (j : SlotIx) (f : Slot → Slot) : (s.modSlot j f).health = s.health := rfl
@[simp] theorem State.modSlot_detaching (j : SlotIx) (f : Slot → Slot) : (s.modSlot j f).detaching = s.detaching := rfl
@[simp] theorem State.modSlot_detachQueue (j : SlotIx) (f : Slot → Slot) : (s.modSlot j f).detachQueue = s.detachQueue := rfl
@[simp] theorem State.modSlot_reports (j : SlotIx) (f : Slot → Slot) : (s.modSlot j f).reports = s.reports := rfl
@[simp] theorem State.modSlot_token (j : SlotIx) (f : Slot → Slot) : (s.modSlot j f).token = s.token := rfl
@[simp] theorem State.modSlot_exchange (j : SlotIx) (f : Slot → Slot) : (s.modSlot j f).exchange = s.exchange := rfl
@[simp] theorem State.modSlot_restartMark (j : SlotIx) (f : Slot → Slot) : (s.modSlot j f).restartMark = s.restartMark := rfl
@[simp] theorem State.modSlot_freezeMark (j : SlotIx) (f : Slot → Slot) : (s.modSlot j f).freezeMark = s.freezeMark := rfl
@[simp] theorem State.modSlot_task (j : SlotIx) (f : Slot → Slot) : (s.modSlot j f).task = s.task := rfl
@[simp] theorem State.modSlot_watch (j : SlotIx) (f : Slot → Slot) : (s.modSlot j f).watch = s.watch := rfl
@[simp] theorem State.modSlot_freeCount (j : SlotIx) (f : Slot → Slot) : (s.modSlot j f).freeCount = s.freeCount := rfl
@[simp] theorem State.port_modSlot (j : SlotIx) (f : Slot → Slot) (p : Port) : (s.modSlot j f).port p = s.port p := rfl
@[simp] theorem State.noteUnit_modSlot (j : SlotIx) (f : Slot → Slot) (p : Port) : (s.modSlot j f).noteUnit p = s.noteUnit p := rfl
@[simp] theorem State.healthOf_modSlot (j : SlotIx) (f : Slot → Slot) (p : Port) : (s.modSlot j f).healthOf p = s.healthOf p := rfl
@[simp] theorem State.hold_modSlot (j : SlotIx) (f : Slot → Slot) (p : Port) : (s.modSlot j f).hold p = s.hold p := rfl

@[simp] theorem State.mapSlots_pending (f : Slot → Slot) : (s.mapSlots f).pending = s.pending := rfl
@[simp] theorem State.mapSlots_inReset (f : Slot → Slot) : (s.mapSlots f).inReset = s.inReset := rfl
@[simp] theorem State.mapSlots_lineLow (f : Slot → Slot) : (s.mapSlots f).lineLow = s.lineLow := rfl
@[simp] theorem State.mapSlots_ports (f : Slot → Slot) : (s.mapSlots f).ports = s.ports := rfl
@[simp] theorem State.mapSlots_queue (f : Slot → Slot) : (s.mapSlots f).queue = s.queue := rfl
@[simp] theorem State.mapSlots_due (f : Slot → Slot) : (s.mapSlots f).due = s.due := rfl
@[simp] theorem State.mapSlots_ripe (f : Slot → Slot) : (s.mapSlots f).ripe = s.ripe := rfl
@[simp] theorem State.mapSlots_flight (f : Slot → Slot) : (s.mapSlots f).flight = s.flight := rfl
@[simp] theorem State.mapSlots_nextOrder (f : Slot → Slot) : (s.mapSlots f).nextOrder = s.nextOrder := rfl
@[simp] theorem State.mapSlots_holds (f : Slot → Slot) : (s.mapSlots f).holds = s.holds := rfl
@[simp] theorem State.mapSlots_holdTimeout (f : Slot → Slot) : (s.mapSlots f).holdTimeout = s.holdTimeout := rfl
@[simp] theorem State.mapSlots_notes (f : Slot → Slot) : (s.mapSlots f).notes = s.notes := rfl
@[simp] theorem State.mapSlots_lostOwners (f : Slot → Slot) : (s.mapSlots f).lostOwners = s.lostOwners := rfl
@[simp] theorem State.mapSlots_time (f : Slot → Slot) : (s.mapSlots f).time = s.time := rfl
@[simp] theorem State.mapSlots_prescaler (f : Slot → Slot) : (s.mapSlots f).prescaler = s.prescaler := rfl
@[simp] theorem State.mapSlots_health (f : Slot → Slot) : (s.mapSlots f).health = s.health := rfl
@[simp] theorem State.mapSlots_detaching (f : Slot → Slot) : (s.mapSlots f).detaching = s.detaching := rfl
@[simp] theorem State.mapSlots_detachQueue (f : Slot → Slot) : (s.mapSlots f).detachQueue = s.detachQueue := rfl
@[simp] theorem State.mapSlots_reports (f : Slot → Slot) : (s.mapSlots f).reports = s.reports := rfl
@[simp] theorem State.mapSlots_token (f : Slot → Slot) : (s.mapSlots f).token = s.token := rfl
@[simp] theorem State.mapSlots_exchange (f : Slot → Slot) : (s.mapSlots f).exchange = s.exchange := rfl
@[simp] theorem State.mapSlots_restartMark (f : Slot → Slot) : (s.mapSlots f).restartMark = s.restartMark := rfl
@[simp] theorem State.mapSlots_freezeMark (f : Slot → Slot) : (s.mapSlots f).freezeMark = s.freezeMark := rfl
@[simp] theorem State.mapSlots_task (f : Slot → Slot) : (s.mapSlots f).task = s.task := rfl
@[simp] theorem State.mapSlots_watch (f : Slot → Slot) : (s.mapSlots f).watch = s.watch := rfl
@[simp] theorem State.mapSlots_freeCount (f : Slot → Slot) : (s.mapSlots f).freeCount = s.freeCount := rfl
@[simp] theorem State.port_mapSlots (f : Slot → Slot) (p : Port) : (s.mapSlots f).port p = s.port p := rfl
@[simp] theorem State.noteUnit_mapSlots (f : Slot → Slot) (p : Port) : (s.mapSlots f).noteUnit p = s.noteUnit p := rfl
@[simp] theorem State.healthOf_mapSlots (f : Slot → Slot) (p : Port) : (s.mapSlots f).healthOf p = s.healthOf p := rfl
@[simp] theorem State.hold_mapSlots (f : Slot → Slot) (p : Port) : (s.mapSlots f).hold p = s.hold p := rfl

@[simp] theorem State.modNotes_pending (q : Port) (f : NoteUnit → NoteUnit) : (s.modNotes q f).pending = s.pending := rfl
@[simp] theorem State.modNotes_inReset (q : Port) (f : NoteUnit → NoteUnit) : (s.modNotes q f).inReset = s.inReset := rfl
@[simp] theorem State.modNotes_lineLow (q : Port) (f : NoteUnit → NoteUnit) : (s.modNotes q f).lineLow = s.lineLow := rfl
@[simp] theorem State.modNotes_ports (q : Port) (f : NoteUnit → NoteUnit) : (s.modNotes q f).ports = s.ports := rfl
@[simp] theorem State.modNotes_slots (q : Port) (f : NoteUnit → NoteUnit) : (s.modNotes q f).slots = s.slots := rfl
@[simp] theorem State.modNotes_queue (q : Port) (f : NoteUnit → NoteUnit) : (s.modNotes q f).queue = s.queue := rfl
@[simp] theorem State.modNotes_due (q : Port) (f : NoteUnit → NoteUnit) : (s.modNotes q f).due = s.due := rfl
@[simp] theorem State.modNotes_ripe (q : Port) (f : NoteUnit → NoteUnit) : (s.modNotes q f).ripe = s.ripe := rfl
@[simp] theorem State.modNotes_flight (q : Port) (f : NoteUnit → NoteUnit) : (s.modNotes q f).flight = s.flight := rfl
@[simp] theorem State.modNotes_nextOrder (q : Port) (f : NoteUnit → NoteUnit) : (s.modNotes q f).nextOrder = s.nextOrder := rfl
@[simp] theorem State.modNotes_holds (q : Port) (f : NoteUnit → NoteUnit) : (s.modNotes q f).holds = s.holds := rfl
@[simp] theorem State.modNotes_holdTimeout (q : Port) (f : NoteUnit → NoteUnit) : (s.modNotes q f).holdTimeout = s.holdTimeout := rfl
@[simp] theorem State.modNotes_lostOwners (q : Port) (f : NoteUnit → NoteUnit) : (s.modNotes q f).lostOwners = s.lostOwners := rfl
@[simp] theorem State.modNotes_time (q : Port) (f : NoteUnit → NoteUnit) : (s.modNotes q f).time = s.time := rfl
@[simp] theorem State.modNotes_prescaler (q : Port) (f : NoteUnit → NoteUnit) : (s.modNotes q f).prescaler = s.prescaler := rfl
@[simp] theorem State.modNotes_health (q : Port) (f : NoteUnit → NoteUnit) : (s.modNotes q f).health = s.health := rfl
@[simp] theorem State.modNotes_detaching (q : Port) (f : NoteUnit → NoteUnit) : (s.modNotes q f).detaching = s.detaching := rfl
@[simp] theorem State.modNotes_detachQueue (q : Port) (f : NoteUnit → NoteUnit) : (s.modNotes q f).detachQueue = s.detachQueue := rfl
@[simp] theorem State.modNotes_reports (q : Port) (f : NoteUnit → NoteUnit) : (s.modNotes q f).reports = s.reports := rfl
@[simp] theorem State.modNotes_token (q : Port) (f : NoteUnit → NoteUnit) : (s.modNotes q f).token = s.token := rfl
@[simp] theorem State.modNotes_exchange (q : Port) (f : NoteUnit → NoteUnit) : (s.modNotes q f).exchange = s.exchange := rfl
@[simp] theorem State.modNotes_restartMark (q : Port) (f : NoteUnit → NoteUnit) : (s.modNotes q f).restartMark = s.restartMark := rfl
@[simp] theorem State.modNotes_freezeMark (q : Port) (f : NoteUnit → NoteUnit) : (s.modNotes q f).freezeMark = s.freezeMark := rfl
@[simp] theorem State.modNotes_task (q : Port) (f : NoteUnit → NoteUnit) : (s.modNotes q f).task = s.task := rfl
@[simp] theorem State.modNotes_watch (q : Port) (f : NoteUnit → NoteUnit) : (s.modNotes q f).watch = s.watch := rfl
@[simp] theorem State.modNotes_freeCount (q : Port) (f : NoteUnit → NoteUnit) : (s.modNotes q f).freeCount = s.freeCount := rfl
@[simp] theorem State.port_modNotes (q : Port) (f : NoteUnit → NoteUnit) (p : Port) : (s.modNotes q f).port p = s.port p := rfl
@[simp] theorem State.slot_modNotes (q : Port) (f : NoteUnit → NoteUnit) (k : SlotIx) : (s.modNotes q f).slot k = s.slot k := rfl
@[simp] theorem State.healthOf_modNotes (q : Port) (f : NoteUnit → NoteUnit) (p : Port) : (s.modNotes q f).healthOf p = s.healthOf p := rfl
@[simp] theorem State.hold_modNotes (q : Port) (f : NoteUnit → NoteUnit) (p : Port) : (s.modNotes q f).hold p = s.hold p := rfl

@[simp] theorem State.modHealth_pending (q : Port) (f : Health → Health) : (s.modHealth q f).pending = s.pending := rfl
@[simp] theorem State.modHealth_inReset (q : Port) (f : Health → Health) : (s.modHealth q f).inReset = s.inReset := rfl
@[simp] theorem State.modHealth_lineLow (q : Port) (f : Health → Health) : (s.modHealth q f).lineLow = s.lineLow := rfl
@[simp] theorem State.modHealth_ports (q : Port) (f : Health → Health) : (s.modHealth q f).ports = s.ports := rfl
@[simp] theorem State.modHealth_slots (q : Port) (f : Health → Health) : (s.modHealth q f).slots = s.slots := rfl
@[simp] theorem State.modHealth_queue (q : Port) (f : Health → Health) : (s.modHealth q f).queue = s.queue := rfl
@[simp] theorem State.modHealth_due (q : Port) (f : Health → Health) : (s.modHealth q f).due = s.due := rfl
@[simp] theorem State.modHealth_ripe (q : Port) (f : Health → Health) : (s.modHealth q f).ripe = s.ripe := rfl
@[simp] theorem State.modHealth_flight (q : Port) (f : Health → Health) : (s.modHealth q f).flight = s.flight := rfl
@[simp] theorem State.modHealth_nextOrder (q : Port) (f : Health → Health) : (s.modHealth q f).nextOrder = s.nextOrder := rfl
@[simp] theorem State.modHealth_holds (q : Port) (f : Health → Health) : (s.modHealth q f).holds = s.holds := rfl
@[simp] theorem State.modHealth_holdTimeout (q : Port) (f : Health → Health) : (s.modHealth q f).holdTimeout = s.holdTimeout := rfl
@[simp] theorem State.modHealth_notes (q : Port) (f : Health → Health) : (s.modHealth q f).notes = s.notes := rfl
@[simp] theorem State.modHealth_lostOwners (q : Port) (f : Health → Health) : (s.modHealth q f).lostOwners = s.lostOwners := rfl
@[simp] theorem State.modHealth_time (q : Port) (f : Health → Health) : (s.modHealth q f).time = s.time := rfl
@[simp] theorem State.modHealth_prescaler (q : Port) (f : Health → Health) : (s.modHealth q f).prescaler = s.prescaler := rfl
@[simp] theorem State.modHealth_detaching (q : Port) (f : Health → Health) : (s.modHealth q f).detaching = s.detaching := rfl
@[simp] theorem State.modHealth_detachQueue (q : Port) (f : Health → Health) : (s.modHealth q f).detachQueue = s.detachQueue := rfl
@[simp] theorem State.modHealth_reports (q : Port) (f : Health → Health) : (s.modHealth q f).reports = s.reports := rfl
@[simp] theorem State.modHealth_token (q : Port) (f : Health → Health) : (s.modHealth q f).token = s.token := rfl
@[simp] theorem State.modHealth_exchange (q : Port) (f : Health → Health) : (s.modHealth q f).exchange = s.exchange := rfl
@[simp] theorem State.modHealth_restartMark (q : Port) (f : Health → Health) : (s.modHealth q f).restartMark = s.restartMark := rfl
@[simp] theorem State.modHealth_freezeMark (q : Port) (f : Health → Health) : (s.modHealth q f).freezeMark = s.freezeMark := rfl
@[simp] theorem State.modHealth_task (q : Port) (f : Health → Health) : (s.modHealth q f).task = s.task := rfl
@[simp] theorem State.modHealth_watch (q : Port) (f : Health → Health) : (s.modHealth q f).watch = s.watch := rfl
@[simp] theorem State.modHealth_freeCount (q : Port) (f : Health → Health) : (s.modHealth q f).freeCount = s.freeCount := rfl
@[simp] theorem State.port_modHealth (q : Port) (f : Health → Health) (p : Port) : (s.modHealth q f).port p = s.port p := rfl
@[simp] theorem State.slot_modHealth (q : Port) (f : Health → Health) (k : SlotIx) : (s.modHealth q f).slot k = s.slot k := rfl
@[simp] theorem State.noteUnit_modHealth (q : Port) (f : Health → Health) (p : Port) : (s.modHealth q f).noteUnit p = s.noteUnit p := rfl
@[simp] theorem State.hold_modHealth (q : Port) (f : Health → Health) (p : Port) : (s.modHealth q f).hold p = s.hold p := rfl

@[simp] theorem State.setHold_pending (q : Port) (h : Option Hold) : (s.setHold q h).pending = s.pending := rfl
@[simp] theorem State.setHold_inReset (q : Port) (h : Option Hold) : (s.setHold q h).inReset = s.inReset := rfl
@[simp] theorem State.setHold_lineLow (q : Port) (h : Option Hold) : (s.setHold q h).lineLow = s.lineLow := rfl
@[simp] theorem State.setHold_ports (q : Port) (h : Option Hold) : (s.setHold q h).ports = s.ports := rfl
@[simp] theorem State.setHold_slots (q : Port) (h : Option Hold) : (s.setHold q h).slots = s.slots := rfl
@[simp] theorem State.setHold_queue (q : Port) (h : Option Hold) : (s.setHold q h).queue = s.queue := rfl
@[simp] theorem State.setHold_due (q : Port) (h : Option Hold) : (s.setHold q h).due = s.due := rfl
@[simp] theorem State.setHold_ripe (q : Port) (h : Option Hold) : (s.setHold q h).ripe = s.ripe := rfl
@[simp] theorem State.setHold_flight (q : Port) (h : Option Hold) : (s.setHold q h).flight = s.flight := rfl
@[simp] theorem State.setHold_nextOrder (q : Port) (h : Option Hold) : (s.setHold q h).nextOrder = s.nextOrder := rfl
@[simp] theorem State.setHold_holdTimeout (q : Port) (h : Option Hold) : (s.setHold q h).holdTimeout = s.holdTimeout := rfl
@[simp] theorem State.setHold_notes (q : Port) (h : Option Hold) : (s.setHold q h).notes = s.notes := rfl
@[simp] theorem State.setHold_lostOwners (q : Port) (h : Option Hold) : (s.setHold q h).lostOwners = s.lostOwners := rfl
@[simp] theorem State.setHold_time (q : Port) (h : Option Hold) : (s.setHold q h).time = s.time := rfl
@[simp] theorem State.setHold_prescaler (q : Port) (h : Option Hold) : (s.setHold q h).prescaler = s.prescaler := rfl
@[simp] theorem State.setHold_health (q : Port) (h : Option Hold) : (s.setHold q h).health = s.health := rfl
@[simp] theorem State.setHold_detaching (q : Port) (h : Option Hold) : (s.setHold q h).detaching = s.detaching := rfl
@[simp] theorem State.setHold_detachQueue (q : Port) (h : Option Hold) : (s.setHold q h).detachQueue = s.detachQueue := rfl
@[simp] theorem State.setHold_reports (q : Port) (h : Option Hold) : (s.setHold q h).reports = s.reports := rfl
@[simp] theorem State.setHold_token (q : Port) (h : Option Hold) : (s.setHold q h).token = s.token := rfl
@[simp] theorem State.setHold_exchange (q : Port) (h : Option Hold) : (s.setHold q h).exchange = s.exchange := rfl
@[simp] theorem State.setHold_restartMark (q : Port) (h : Option Hold) : (s.setHold q h).restartMark = s.restartMark := rfl
@[simp] theorem State.setHold_freezeMark (q : Port) (h : Option Hold) : (s.setHold q h).freezeMark = s.freezeMark := rfl
@[simp] theorem State.setHold_task (q : Port) (h : Option Hold) : (s.setHold q h).task = s.task := rfl
@[simp] theorem State.setHold_watch (q : Port) (h : Option Hold) : (s.setHold q h).watch = s.watch := rfl
@[simp] theorem State.setHold_freeCount (q : Port) (h : Option Hold) : (s.setHold q h).freeCount = s.freeCount := rfl
@[simp] theorem State.port_setHold (q : Port) (h : Option Hold) (p : Port) : (s.setHold q h).port p = s.port p := rfl
@[simp] theorem State.slot_setHold (q : Port) (h : Option Hold) (k : SlotIx) : (s.setHold q h).slot k = s.slot k := rfl
@[simp] theorem State.noteUnit_setHold (q : Port) (h : Option Hold) (p : Port) : (s.setHold q h).noteUnit p = s.noteUnit p := rfl
@[simp] theorem State.healthOf_setHold (q : Port) (h : Option Hold) (p : Port) : (s.setHold q h).healthOf p = s.healthOf p := rfl

@[simp] theorem State.report_pending (q : Port) (r : ReportKind) : (s.report q r).pending = s.pending := rfl
@[simp] theorem State.report_inReset (q : Port) (r : ReportKind) : (s.report q r).inReset = s.inReset := rfl
@[simp] theorem State.report_lineLow (q : Port) (r : ReportKind) : (s.report q r).lineLow = s.lineLow := rfl
@[simp] theorem State.report_ports (q : Port) (r : ReportKind) : (s.report q r).ports = s.ports := rfl
@[simp] theorem State.report_slots (q : Port) (r : ReportKind) : (s.report q r).slots = s.slots := rfl
@[simp] theorem State.report_queue (q : Port) (r : ReportKind) : (s.report q r).queue = s.queue := rfl
@[simp] theorem State.report_due (q : Port) (r : ReportKind) : (s.report q r).due = s.due := rfl
@[simp] theorem State.report_ripe (q : Port) (r : ReportKind) : (s.report q r).ripe = s.ripe := rfl
@[simp] theorem State.report_flight (q : Port) (r : ReportKind) : (s.report q r).flight = s.flight := rfl
@[simp] theorem State.report_nextOrder (q : Port) (r : ReportKind) : (s.report q r).nextOrder = s.nextOrder := rfl
@[simp] theorem State.report_holds (q : Port) (r : ReportKind) : (s.report q r).holds = s.holds := rfl
@[simp] theorem State.report_holdTimeout (q : Port) (r : ReportKind) : (s.report q r).holdTimeout = s.holdTimeout := rfl
@[simp] theorem State.report_notes (q : Port) (r : ReportKind) : (s.report q r).notes = s.notes := rfl
@[simp] theorem State.report_lostOwners (q : Port) (r : ReportKind) : (s.report q r).lostOwners = s.lostOwners := rfl
@[simp] theorem State.report_time (q : Port) (r : ReportKind) : (s.report q r).time = s.time := rfl
@[simp] theorem State.report_prescaler (q : Port) (r : ReportKind) : (s.report q r).prescaler = s.prescaler := rfl
@[simp] theorem State.report_health (q : Port) (r : ReportKind) : (s.report q r).health = s.health := rfl
@[simp] theorem State.report_detaching (q : Port) (r : ReportKind) : (s.report q r).detaching = s.detaching := rfl
@[simp] theorem State.report_detachQueue (q : Port) (r : ReportKind) : (s.report q r).detachQueue = s.detachQueue := rfl
@[simp] theorem State.report_token (q : Port) (r : ReportKind) : (s.report q r).token = s.token := rfl
@[simp] theorem State.report_exchange (q : Port) (r : ReportKind) : (s.report q r).exchange = s.exchange := rfl
@[simp] theorem State.report_restartMark (q : Port) (r : ReportKind) : (s.report q r).restartMark = s.restartMark := rfl
@[simp] theorem State.report_freezeMark (q : Port) (r : ReportKind) : (s.report q r).freezeMark = s.freezeMark := rfl
@[simp] theorem State.report_task (q : Port) (r : ReportKind) : (s.report q r).task = s.task := rfl
@[simp] theorem State.report_watch (q : Port) (r : ReportKind) : (s.report q r).watch = s.watch := rfl
@[simp] theorem State.report_freeCount (q : Port) (r : ReportKind) : (s.report q r).freeCount = s.freeCount := rfl
@[simp] theorem State.port_report (q : Port) (r : ReportKind) (p : Port) : (s.report q r).port p = s.port p := rfl
@[simp] theorem State.slot_report (q : Port) (r : ReportKind) (k : SlotIx) : (s.report q r).slot k = s.slot k := rfl
@[simp] theorem State.noteUnit_report (q : Port) (r : ReportKind) (p : Port) : (s.report q r).noteUnit p = s.noteUnit p := rfl
@[simp] theorem State.healthOf_report (q : Port) (r : ReportKind) (p : Port) : (s.report q r).healthOf p = s.healthOf p := rfl
@[simp] theorem State.hold_report (q : Port) (r : ReportKind) (p : Port) : (s.report q r).hold p = s.hold p := rfl

@[simp] theorem State.noteReport_pending (q : Port) (r : ReportKind) : (s.noteReport q r).pending = s.pending := rfl
@[simp] theorem State.noteReport_inReset (q : Port) (r : ReportKind) : (s.noteReport q r).inReset = s.inReset := rfl
@[simp] theorem State.noteReport_lineLow (q : Port) (r : ReportKind) : (s.noteReport q r).lineLow = s.lineLow := rfl
@[simp] theorem State.noteReport_ports (q : Port) (r : ReportKind) : (s.noteReport q r).ports = s.ports := rfl
@[simp] theorem State.noteReport_slots (q : Port) (r : ReportKind) : (s.noteReport q r).slots = s.slots := rfl
@[simp] theorem State.noteReport_queue (q : Port) (r : ReportKind) : (s.noteReport q r).queue = s.queue := rfl
@[simp] theorem State.noteReport_due (q : Port) (r : ReportKind) : (s.noteReport q r).due = s.due := rfl
@[simp] theorem State.noteReport_ripe (q : Port) (r : ReportKind) : (s.noteReport q r).ripe = s.ripe := rfl
@[simp] theorem State.noteReport_flight (q : Port) (r : ReportKind) : (s.noteReport q r).flight = s.flight := rfl
@[simp] theorem State.noteReport_nextOrder (q : Port) (r : ReportKind) : (s.noteReport q r).nextOrder = s.nextOrder := rfl
@[simp] theorem State.noteReport_holds (q : Port) (r : ReportKind) : (s.noteReport q r).holds = s.holds := rfl
@[simp] theorem State.noteReport_holdTimeout (q : Port) (r : ReportKind) : (s.noteReport q r).holdTimeout = s.holdTimeout := rfl
@[simp] theorem State.noteReport_notes (q : Port) (r : ReportKind) : (s.noteReport q r).notes = s.notes := rfl
@[simp] theorem State.noteReport_lostOwners (q : Port) (r : ReportKind) : (s.noteReport q r).lostOwners = s.lostOwners := rfl
@[simp] theorem State.noteReport_time (q : Port) (r : ReportKind) : (s.noteReport q r).time = s.time := rfl
@[simp] theorem State.noteReport_prescaler (q : Port) (r : ReportKind) : (s.noteReport q r).prescaler = s.prescaler := rfl
@[simp] theorem State.noteReport_health (q : Port) (r : ReportKind) : (s.noteReport q r).health = s.health := rfl
@[simp] theorem State.noteReport_detaching (q : Port) (r : ReportKind) : (s.noteReport q r).detaching = s.detaching := rfl
@[simp] theorem State.noteReport_detachQueue (q : Port) (r : ReportKind) : (s.noteReport q r).detachQueue = s.detachQueue := rfl
@[simp] theorem State.noteReport_token (q : Port) (r : ReportKind) : (s.noteReport q r).token = s.token := rfl
@[simp] theorem State.noteReport_exchange (q : Port) (r : ReportKind) : (s.noteReport q r).exchange = s.exchange := rfl
@[simp] theorem State.noteReport_restartMark (q : Port) (r : ReportKind) : (s.noteReport q r).restartMark = s.restartMark := rfl
@[simp] theorem State.noteReport_freezeMark (q : Port) (r : ReportKind) : (s.noteReport q r).freezeMark = s.freezeMark := rfl
@[simp] theorem State.noteReport_task (q : Port) (r : ReportKind) : (s.noteReport q r).task = s.task := rfl
@[simp] theorem State.noteReport_watch (q : Port) (r : ReportKind) : (s.noteReport q r).watch = s.watch := rfl
@[simp] theorem State.noteReport_freeCount (q : Port) (r : ReportKind) : (s.noteReport q r).freeCount = s.freeCount := rfl
@[simp] theorem State.port_noteReport (q : Port) (r : ReportKind) (p : Port) : (s.noteReport q r).port p = s.port p := rfl
@[simp] theorem State.slot_noteReport (q : Port) (r : ReportKind) (k : SlotIx) : (s.noteReport q r).slot k = s.slot k := rfl
@[simp] theorem State.noteUnit_noteReport (q : Port) (r : ReportKind) (p : Port) : (s.noteReport q r).noteUnit p = s.noteUnit p := rfl
@[simp] theorem State.healthOf_noteReport (q : Port) (r : ReportKind) (p : Port) : (s.noteReport q r).healthOf p = s.healthOf p := rfl
@[simp] theorem State.hold_noteReport (q : Port) (r : ReportKind) (p : Port) : (s.noteReport q r).hold p = s.hold p := rfl

@[simp] theorem State.post_pending (q : Port) (r : Result) : (s.post q r).pending = s.pending := rfl
@[simp] theorem State.post_inReset (q : Port) (r : Result) : (s.post q r).inReset = s.inReset := rfl
@[simp] theorem State.post_lineLow (q : Port) (r : Result) : (s.post q r).lineLow = s.lineLow := rfl
@[simp] theorem State.post_slots (q : Port) (r : Result) : (s.post q r).slots = s.slots := rfl
@[simp] theorem State.post_queue (q : Port) (r : Result) : (s.post q r).queue = s.queue := rfl
@[simp] theorem State.post_due (q : Port) (r : Result) : (s.post q r).due = s.due := rfl
@[simp] theorem State.post_ripe (q : Port) (r : Result) : (s.post q r).ripe = s.ripe := rfl
@[simp] theorem State.post_flight (q : Port) (r : Result) : (s.post q r).flight = s.flight := rfl
@[simp] theorem State.post_nextOrder (q : Port) (r : Result) : (s.post q r).nextOrder = s.nextOrder := rfl
@[simp] theorem State.post_holds (q : Port) (r : Result) : (s.post q r).holds = s.holds := rfl
@[simp] theorem State.post_holdTimeout (q : Port) (r : Result) : (s.post q r).holdTimeout = s.holdTimeout := rfl
@[simp] theorem State.post_notes (q : Port) (r : Result) : (s.post q r).notes = s.notes := rfl
@[simp] theorem State.post_lostOwners (q : Port) (r : Result) : (s.post q r).lostOwners = s.lostOwners := rfl
@[simp] theorem State.post_time (q : Port) (r : Result) : (s.post q r).time = s.time := rfl
@[simp] theorem State.post_prescaler (q : Port) (r : Result) : (s.post q r).prescaler = s.prescaler := rfl
@[simp] theorem State.post_health (q : Port) (r : Result) : (s.post q r).health = s.health := rfl
@[simp] theorem State.post_detaching (q : Port) (r : Result) : (s.post q r).detaching = s.detaching := rfl
@[simp] theorem State.post_detachQueue (q : Port) (r : Result) : (s.post q r).detachQueue = s.detachQueue := rfl
@[simp] theorem State.post_reports (q : Port) (r : Result) : (s.post q r).reports = s.reports := rfl
@[simp] theorem State.post_token (q : Port) (r : Result) : (s.post q r).token = s.token := rfl
@[simp] theorem State.post_exchange (q : Port) (r : Result) : (s.post q r).exchange = s.exchange := rfl
@[simp] theorem State.post_restartMark (q : Port) (r : Result) : (s.post q r).restartMark = s.restartMark := rfl
@[simp] theorem State.post_freezeMark (q : Port) (r : Result) : (s.post q r).freezeMark = s.freezeMark := rfl
@[simp] theorem State.post_task (q : Port) (r : Result) : (s.post q r).task = s.task := rfl
@[simp] theorem State.post_watch (q : Port) (r : Result) : (s.post q r).watch = s.watch := rfl
@[simp] theorem State.post_freeCount (q : Port) (r : Result) : (s.post q r).freeCount = s.freeCount := rfl
@[simp] theorem State.slot_post (q : Port) (r : Result) (k : SlotIx) : (s.post q r).slot k = s.slot k := rfl
@[simp] theorem State.noteUnit_post (q : Port) (r : Result) (p : Port) : (s.post q r).noteUnit p = s.noteUnit p := rfl
@[simp] theorem State.healthOf_post (q : Port) (r : Result) (p : Port) : (s.post q r).healthOf p = s.healthOf p := rfl
@[simp] theorem State.hold_post (q : Port) (r : Result) (p : Port) : (s.post q r).hold p = s.hold p := rfl

@[simp] theorem State.setPhase_pending (q : Port) (ph : Phase) : (s.setPhase q ph).pending = s.pending := rfl
@[simp] theorem State.setPhase_inReset (q : Port) (ph : Phase) : (s.setPhase q ph).inReset = s.inReset := rfl
@[simp] theorem State.setPhase_lineLow (q : Port) (ph : Phase) : (s.setPhase q ph).lineLow = s.lineLow := rfl
@[simp] theorem State.setPhase_slots (q : Port) (ph : Phase) : (s.setPhase q ph).slots = s.slots := rfl
@[simp] theorem State.setPhase_queue (q : Port) (ph : Phase) : (s.setPhase q ph).queue = s.queue := rfl
@[simp] theorem State.setPhase_due (q : Port) (ph : Phase) : (s.setPhase q ph).due = s.due := rfl
@[simp] theorem State.setPhase_ripe (q : Port) (ph : Phase) : (s.setPhase q ph).ripe = s.ripe := rfl
@[simp] theorem State.setPhase_flight (q : Port) (ph : Phase) : (s.setPhase q ph).flight = s.flight := rfl
@[simp] theorem State.setPhase_nextOrder (q : Port) (ph : Phase) : (s.setPhase q ph).nextOrder = s.nextOrder := rfl
@[simp] theorem State.setPhase_holds (q : Port) (ph : Phase) : (s.setPhase q ph).holds = s.holds := rfl
@[simp] theorem State.setPhase_holdTimeout (q : Port) (ph : Phase) : (s.setPhase q ph).holdTimeout = s.holdTimeout := rfl
@[simp] theorem State.setPhase_notes (q : Port) (ph : Phase) : (s.setPhase q ph).notes = s.notes := rfl
@[simp] theorem State.setPhase_lostOwners (q : Port) (ph : Phase) : (s.setPhase q ph).lostOwners = s.lostOwners := rfl
@[simp] theorem State.setPhase_time (q : Port) (ph : Phase) : (s.setPhase q ph).time = s.time := rfl
@[simp] theorem State.setPhase_prescaler (q : Port) (ph : Phase) : (s.setPhase q ph).prescaler = s.prescaler := rfl
@[simp] theorem State.setPhase_health (q : Port) (ph : Phase) : (s.setPhase q ph).health = s.health := rfl
@[simp] theorem State.setPhase_detaching (q : Port) (ph : Phase) : (s.setPhase q ph).detaching = s.detaching := rfl
@[simp] theorem State.setPhase_detachQueue (q : Port) (ph : Phase) : (s.setPhase q ph).detachQueue = s.detachQueue := rfl
@[simp] theorem State.setPhase_reports (q : Port) (ph : Phase) : (s.setPhase q ph).reports = s.reports := rfl
@[simp] theorem State.setPhase_token (q : Port) (ph : Phase) : (s.setPhase q ph).token = s.token := rfl
@[simp] theorem State.setPhase_exchange (q : Port) (ph : Phase) : (s.setPhase q ph).exchange = s.exchange := rfl
@[simp] theorem State.setPhase_restartMark (q : Port) (ph : Phase) : (s.setPhase q ph).restartMark = s.restartMark := rfl
@[simp] theorem State.setPhase_freezeMark (q : Port) (ph : Phase) : (s.setPhase q ph).freezeMark = s.freezeMark := rfl
@[simp] theorem State.setPhase_task (q : Port) (ph : Phase) : (s.setPhase q ph).task = s.task := rfl
@[simp] theorem State.setPhase_watch (q : Port) (ph : Phase) : (s.setPhase q ph).watch = s.watch := rfl
@[simp] theorem State.setPhase_freeCount (q : Port) (ph : Phase) : (s.setPhase q ph).freeCount = s.freeCount := rfl
@[simp] theorem State.slot_setPhase (q : Port) (ph : Phase) (k : SlotIx) : (s.setPhase q ph).slot k = s.slot k := rfl
@[simp] theorem State.noteUnit_setPhase (q : Port) (ph : Phase) (p : Port) : (s.setPhase q ph).noteUnit p = s.noteUnit p := rfl
@[simp] theorem State.healthOf_setPhase (q : Port) (ph : Phase) (p : Port) : (s.setPhase q ph).healthOf p = s.healthOf p := rfl
@[simp] theorem State.hold_setPhase (q : Port) (ph : Phase) (p : Port) : (s.setPhase q ph).hold p = s.hold p := rfl

@[simp] theorem State.setParked_pending (j : SlotIx) (o : Option Offer) : (s.setParked j o).pending = s.pending := rfl
@[simp] theorem State.setParked_inReset (j : SlotIx) (o : Option Offer) : (s.setParked j o).inReset = s.inReset := rfl
@[simp] theorem State.setParked_lineLow (j : SlotIx) (o : Option Offer) : (s.setParked j o).lineLow = s.lineLow := rfl
@[simp] theorem State.setParked_ports (j : SlotIx) (o : Option Offer) : (s.setParked j o).ports = s.ports := rfl
@[simp] theorem State.setParked_queue (j : SlotIx) (o : Option Offer) : (s.setParked j o).queue = s.queue := rfl
@[simp] theorem State.setParked_due (j : SlotIx) (o : Option Offer) : (s.setParked j o).due = s.due := rfl
@[simp] theorem State.setParked_ripe (j : SlotIx) (o : Option Offer) : (s.setParked j o).ripe = s.ripe := rfl
@[simp] theorem State.setParked_flight (j : SlotIx) (o : Option Offer) : (s.setParked j o).flight = s.flight := rfl
@[simp] theorem State.setParked_nextOrder (j : SlotIx) (o : Option Offer) : (s.setParked j o).nextOrder = s.nextOrder := rfl
@[simp] theorem State.setParked_holds (j : SlotIx) (o : Option Offer) : (s.setParked j o).holds = s.holds := rfl
@[simp] theorem State.setParked_holdTimeout (j : SlotIx) (o : Option Offer) : (s.setParked j o).holdTimeout = s.holdTimeout := rfl
@[simp] theorem State.setParked_notes (j : SlotIx) (o : Option Offer) : (s.setParked j o).notes = s.notes := rfl
@[simp] theorem State.setParked_lostOwners (j : SlotIx) (o : Option Offer) : (s.setParked j o).lostOwners = s.lostOwners := rfl
@[simp] theorem State.setParked_time (j : SlotIx) (o : Option Offer) : (s.setParked j o).time = s.time := rfl
@[simp] theorem State.setParked_prescaler (j : SlotIx) (o : Option Offer) : (s.setParked j o).prescaler = s.prescaler := rfl
@[simp] theorem State.setParked_health (j : SlotIx) (o : Option Offer) : (s.setParked j o).health = s.health := rfl
@[simp] theorem State.setParked_detaching (j : SlotIx) (o : Option Offer) : (s.setParked j o).detaching = s.detaching := rfl
@[simp] theorem State.setParked_detachQueue (j : SlotIx) (o : Option Offer) : (s.setParked j o).detachQueue = s.detachQueue := rfl
@[simp] theorem State.setParked_reports (j : SlotIx) (o : Option Offer) : (s.setParked j o).reports = s.reports := rfl
@[simp] theorem State.setParked_token (j : SlotIx) (o : Option Offer) : (s.setParked j o).token = s.token := rfl
@[simp] theorem State.setParked_exchange (j : SlotIx) (o : Option Offer) : (s.setParked j o).exchange = s.exchange := rfl
@[simp] theorem State.setParked_restartMark (j : SlotIx) (o : Option Offer) : (s.setParked j o).restartMark = s.restartMark := rfl
@[simp] theorem State.setParked_freezeMark (j : SlotIx) (o : Option Offer) : (s.setParked j o).freezeMark = s.freezeMark := rfl
@[simp] theorem State.setParked_task (j : SlotIx) (o : Option Offer) : (s.setParked j o).task = s.task := rfl
@[simp] theorem State.setParked_watch (j : SlotIx) (o : Option Offer) : (s.setParked j o).watch = s.watch := rfl
@[simp] theorem State.setParked_freeCount (j : SlotIx) (o : Option Offer) : (s.setParked j o).freeCount = s.freeCount := rfl
@[simp] theorem State.port_setParked (j : SlotIx) (o : Option Offer) (p : Port) : (s.setParked j o).port p = s.port p := rfl
@[simp] theorem State.noteUnit_setParked (j : SlotIx) (o : Option Offer) (p : Port) : (s.setParked j o).noteUnit p = s.noteUnit p := rfl
@[simp] theorem State.healthOf_setParked (j : SlotIx) (o : Option Offer) (p : Port) : (s.setParked j o).healthOf p = s.healthOf p := rfl
@[simp] theorem State.hold_setParked (j : SlotIx) (o : Option Offer) (p : Port) : (s.setParked j o).hold p = s.hold p := rfl

@[simp] theorem State.appendEntry_pending (o : Offer) : (s.appendEntry o).pending = s.pending := rfl
@[simp] theorem State.appendEntry_inReset (o : Offer) : (s.appendEntry o).inReset = s.inReset := rfl
@[simp] theorem State.appendEntry_lineLow (o : Offer) : (s.appendEntry o).lineLow = s.lineLow := rfl
@[simp] theorem State.appendEntry_ports (o : Offer) : (s.appendEntry o).ports = s.ports := rfl
@[simp] theorem State.appendEntry_slots (o : Offer) : (s.appendEntry o).slots = s.slots := rfl
@[simp] theorem State.appendEntry_due (o : Offer) : (s.appendEntry o).due = s.due := rfl
@[simp] theorem State.appendEntry_ripe (o : Offer) : (s.appendEntry o).ripe = s.ripe := rfl
@[simp] theorem State.appendEntry_flight (o : Offer) : (s.appendEntry o).flight = s.flight := rfl
@[simp] theorem State.appendEntry_holds (o : Offer) : (s.appendEntry o).holds = s.holds := rfl
@[simp] theorem State.appendEntry_holdTimeout (o : Offer) : (s.appendEntry o).holdTimeout = s.holdTimeout := rfl
@[simp] theorem State.appendEntry_notes (o : Offer) : (s.appendEntry o).notes = s.notes := rfl
@[simp] theorem State.appendEntry_lostOwners (o : Offer) : (s.appendEntry o).lostOwners = s.lostOwners := rfl
@[simp] theorem State.appendEntry_time (o : Offer) : (s.appendEntry o).time = s.time := rfl
@[simp] theorem State.appendEntry_prescaler (o : Offer) : (s.appendEntry o).prescaler = s.prescaler := rfl
@[simp] theorem State.appendEntry_health (o : Offer) : (s.appendEntry o).health = s.health := rfl
@[simp] theorem State.appendEntry_detaching (o : Offer) : (s.appendEntry o).detaching = s.detaching := rfl
@[simp] theorem State.appendEntry_detachQueue (o : Offer) : (s.appendEntry o).detachQueue = s.detachQueue := rfl
@[simp] theorem State.appendEntry_reports (o : Offer) : (s.appendEntry o).reports = s.reports := rfl
@[simp] theorem State.appendEntry_token (o : Offer) : (s.appendEntry o).token = s.token := rfl
@[simp] theorem State.appendEntry_exchange (o : Offer) : (s.appendEntry o).exchange = s.exchange := rfl
@[simp] theorem State.appendEntry_restartMark (o : Offer) : (s.appendEntry o).restartMark = s.restartMark := rfl
@[simp] theorem State.appendEntry_freezeMark (o : Offer) : (s.appendEntry o).freezeMark = s.freezeMark := rfl
@[simp] theorem State.appendEntry_task (o : Offer) : (s.appendEntry o).task = s.task := rfl
@[simp] theorem State.appendEntry_watch (o : Offer) : (s.appendEntry o).watch = s.watch := rfl
@[simp] theorem State.appendEntry_freeCount (o : Offer) : (s.appendEntry o).freeCount = s.freeCount := rfl
@[simp] theorem State.port_appendEntry (o : Offer) (p : Port) : (s.appendEntry o).port p = s.port p := rfl
@[simp] theorem State.slot_appendEntry (o : Offer) (k : SlotIx) : (s.appendEntry o).slot k = s.slot k := rfl
@[simp] theorem State.noteUnit_appendEntry (o : Offer) (p : Port) : (s.appendEntry o).noteUnit p = s.noteUnit p := rfl
@[simp] theorem State.healthOf_appendEntry (o : Offer) (p : Port) : (s.appendEntry o).healthOf p = s.healthOf p := rfl
@[simp] theorem State.hold_appendEntry (o : Offer) (p : Port) : (s.appendEntry o).hold p = s.hold p := rfl

@[simp] theorem State.unripen_pending (j : SlotIx) : (s.unripen j).pending = s.pending := rfl
@[simp] theorem State.unripen_inReset (j : SlotIx) : (s.unripen j).inReset = s.inReset := rfl
@[simp] theorem State.unripen_lineLow (j : SlotIx) : (s.unripen j).lineLow = s.lineLow := rfl
@[simp] theorem State.unripen_ports (j : SlotIx) : (s.unripen j).ports = s.ports := rfl
@[simp] theorem State.unripen_slots (j : SlotIx) : (s.unripen j).slots = s.slots := rfl
@[simp] theorem State.unripen_queue (j : SlotIx) : (s.unripen j).queue = s.queue := rfl
@[simp] theorem State.unripen_due (j : SlotIx) : (s.unripen j).due = s.due := rfl
@[simp] theorem State.unripen_flight (j : SlotIx) : (s.unripen j).flight = s.flight := rfl
@[simp] theorem State.unripen_nextOrder (j : SlotIx) : (s.unripen j).nextOrder = s.nextOrder := rfl
@[simp] theorem State.unripen_holds (j : SlotIx) : (s.unripen j).holds = s.holds := rfl
@[simp] theorem State.unripen_holdTimeout (j : SlotIx) : (s.unripen j).holdTimeout = s.holdTimeout := rfl
@[simp] theorem State.unripen_notes (j : SlotIx) : (s.unripen j).notes = s.notes := rfl
@[simp] theorem State.unripen_lostOwners (j : SlotIx) : (s.unripen j).lostOwners = s.lostOwners := rfl
@[simp] theorem State.unripen_time (j : SlotIx) : (s.unripen j).time = s.time := rfl
@[simp] theorem State.unripen_prescaler (j : SlotIx) : (s.unripen j).prescaler = s.prescaler := rfl
@[simp] theorem State.unripen_health (j : SlotIx) : (s.unripen j).health = s.health := rfl
@[simp] theorem State.unripen_detaching (j : SlotIx) : (s.unripen j).detaching = s.detaching := rfl
@[simp] theorem State.unripen_detachQueue (j : SlotIx) : (s.unripen j).detachQueue = s.detachQueue := rfl
@[simp] theorem State.unripen_reports (j : SlotIx) : (s.unripen j).reports = s.reports := rfl
@[simp] theorem State.unripen_token (j : SlotIx) : (s.unripen j).token = s.token := rfl
@[simp] theorem State.unripen_exchange (j : SlotIx) : (s.unripen j).exchange = s.exchange := rfl
@[simp] theorem State.unripen_restartMark (j : SlotIx) : (s.unripen j).restartMark = s.restartMark := rfl
@[simp] theorem State.unripen_freezeMark (j : SlotIx) : (s.unripen j).freezeMark = s.freezeMark := rfl
@[simp] theorem State.unripen_task (j : SlotIx) : (s.unripen j).task = s.task := rfl
@[simp] theorem State.unripen_watch (j : SlotIx) : (s.unripen j).watch = s.watch := rfl
@[simp] theorem State.unripen_freeCount (j : SlotIx) : (s.unripen j).freeCount = s.freeCount := rfl
@[simp] theorem State.port_unripen (j : SlotIx) (p : Port) : (s.unripen j).port p = s.port p := rfl
@[simp] theorem State.slot_unripen (j : SlotIx) (k : SlotIx) : (s.unripen j).slot k = s.slot k := rfl
@[simp] theorem State.noteUnit_unripen (j : SlotIx) (p : Port) : (s.unripen j).noteUnit p = s.noteUnit p := rfl
@[simp] theorem State.healthOf_unripen (j : SlotIx) (p : Port) : (s.unripen j).healthOf p = s.healthOf p := rfl
@[simp] theorem State.hold_unripen (j : SlotIx) (p : Port) : (s.unripen j).hold p = s.hold p := rfl

@[simp] theorem State.withdraw_pending (q : Port) : (s.withdraw q).pending = s.pending := rfl
@[simp] theorem State.withdraw_inReset (q : Port) : (s.withdraw q).inReset = s.inReset := rfl
@[simp] theorem State.withdraw_lineLow (q : Port) : (s.withdraw q).lineLow = s.lineLow := rfl
@[simp] theorem State.withdraw_ports (q : Port) : (s.withdraw q).ports = s.ports := rfl
@[simp] theorem State.withdraw_slots (q : Port) : (s.withdraw q).slots = s.slots := rfl
@[simp] theorem State.withdraw_due (q : Port) : (s.withdraw q).due = s.due := rfl
@[simp] theorem State.withdraw_ripe (q : Port) : (s.withdraw q).ripe = s.ripe := rfl
@[simp] theorem State.withdraw_flight (q : Port) : (s.withdraw q).flight = s.flight := rfl
@[simp] theorem State.withdraw_nextOrder (q : Port) : (s.withdraw q).nextOrder = s.nextOrder := rfl
@[simp] theorem State.withdraw_holds (q : Port) : (s.withdraw q).holds = s.holds := rfl
@[simp] theorem State.withdraw_holdTimeout (q : Port) : (s.withdraw q).holdTimeout = s.holdTimeout := rfl
@[simp] theorem State.withdraw_notes (q : Port) : (s.withdraw q).notes = s.notes := rfl
@[simp] theorem State.withdraw_lostOwners (q : Port) : (s.withdraw q).lostOwners = s.lostOwners := rfl
@[simp] theorem State.withdraw_time (q : Port) : (s.withdraw q).time = s.time := rfl
@[simp] theorem State.withdraw_prescaler (q : Port) : (s.withdraw q).prescaler = s.prescaler := rfl
@[simp] theorem State.withdraw_health (q : Port) : (s.withdraw q).health = s.health := rfl
@[simp] theorem State.withdraw_detaching (q : Port) : (s.withdraw q).detaching = s.detaching := rfl
@[simp] theorem State.withdraw_detachQueue (q : Port) : (s.withdraw q).detachQueue = s.detachQueue := rfl
@[simp] theorem State.withdraw_reports (q : Port) : (s.withdraw q).reports = s.reports := rfl
@[simp] theorem State.withdraw_token (q : Port) : (s.withdraw q).token = s.token := rfl
@[simp] theorem State.withdraw_exchange (q : Port) : (s.withdraw q).exchange = s.exchange := rfl
@[simp] theorem State.withdraw_restartMark (q : Port) : (s.withdraw q).restartMark = s.restartMark := rfl
@[simp] theorem State.withdraw_freezeMark (q : Port) : (s.withdraw q).freezeMark = s.freezeMark := rfl
@[simp] theorem State.withdraw_task (q : Port) : (s.withdraw q).task = s.task := rfl
@[simp] theorem State.withdraw_watch (q : Port) : (s.withdraw q).watch = s.watch := rfl
@[simp] theorem State.withdraw_freeCount (q : Port) : (s.withdraw q).freeCount = s.freeCount := rfl
@[simp] theorem State.port_withdraw (q : Port) (p : Port) : (s.withdraw q).port p = s.port p := rfl
@[simp] theorem State.slot_withdraw (q : Port) (k : SlotIx) : (s.withdraw q).slot k = s.slot k := rfl
@[simp] theorem State.noteUnit_withdraw (q : Port) (p : Port) : (s.withdraw q).noteUnit p = s.noteUnit p := rfl
@[simp] theorem State.healthOf_withdraw (q : Port) (p : Port) : (s.withdraw q).healthOf p = s.healthOf p := rfl
@[simp] theorem State.hold_withdraw (q : Port) (p : Port) : (s.withdraw q).hold p = s.hold p := rfl

@[simp] theorem State.sealNotes_pending (j : SlotIx) : (s.sealNotes j).pending = s.pending := rfl
@[simp] theorem State.sealNotes_inReset (j : SlotIx) : (s.sealNotes j).inReset = s.inReset := rfl
@[simp] theorem State.sealNotes_lineLow (j : SlotIx) : (s.sealNotes j).lineLow = s.lineLow := rfl
@[simp] theorem State.sealNotes_ports (j : SlotIx) : (s.sealNotes j).ports = s.ports := rfl
@[simp] theorem State.sealNotes_slots (j : SlotIx) : (s.sealNotes j).slots = s.slots := rfl
@[simp] theorem State.sealNotes_queue (j : SlotIx) : (s.sealNotes j).queue = s.queue := rfl
@[simp] theorem State.sealNotes_due (j : SlotIx) : (s.sealNotes j).due = s.due := rfl
@[simp] theorem State.sealNotes_ripe (j : SlotIx) : (s.sealNotes j).ripe = s.ripe := rfl
@[simp] theorem State.sealNotes_flight (j : SlotIx) : (s.sealNotes j).flight = s.flight := rfl
@[simp] theorem State.sealNotes_nextOrder (j : SlotIx) : (s.sealNotes j).nextOrder = s.nextOrder := rfl
@[simp] theorem State.sealNotes_holds (j : SlotIx) : (s.sealNotes j).holds = s.holds := rfl
@[simp] theorem State.sealNotes_holdTimeout (j : SlotIx) : (s.sealNotes j).holdTimeout = s.holdTimeout := rfl
@[simp] theorem State.sealNotes_lostOwners (j : SlotIx) : (s.sealNotes j).lostOwners = s.lostOwners := rfl
@[simp] theorem State.sealNotes_time (j : SlotIx) : (s.sealNotes j).time = s.time := rfl
@[simp] theorem State.sealNotes_prescaler (j : SlotIx) : (s.sealNotes j).prescaler = s.prescaler := rfl
@[simp] theorem State.sealNotes_health (j : SlotIx) : (s.sealNotes j).health = s.health := rfl
@[simp] theorem State.sealNotes_detaching (j : SlotIx) : (s.sealNotes j).detaching = s.detaching := rfl
@[simp] theorem State.sealNotes_detachQueue (j : SlotIx) : (s.sealNotes j).detachQueue = s.detachQueue := rfl
@[simp] theorem State.sealNotes_reports (j : SlotIx) : (s.sealNotes j).reports = s.reports := rfl
@[simp] theorem State.sealNotes_token (j : SlotIx) : (s.sealNotes j).token = s.token := rfl
@[simp] theorem State.sealNotes_exchange (j : SlotIx) : (s.sealNotes j).exchange = s.exchange := rfl
@[simp] theorem State.sealNotes_restartMark (j : SlotIx) : (s.sealNotes j).restartMark = s.restartMark := rfl
@[simp] theorem State.sealNotes_freezeMark (j : SlotIx) : (s.sealNotes j).freezeMark = s.freezeMark := rfl
@[simp] theorem State.sealNotes_task (j : SlotIx) : (s.sealNotes j).task = s.task := rfl
@[simp] theorem State.sealNotes_watch (j : SlotIx) : (s.sealNotes j).watch = s.watch := rfl
@[simp] theorem State.sealNotes_freeCount (j : SlotIx) : (s.sealNotes j).freeCount = s.freeCount := rfl
@[simp] theorem State.port_sealNotes (j : SlotIx) (p : Port) : (s.sealNotes j).port p = s.port p := rfl
@[simp] theorem State.slot_sealNotes (j : SlotIx) (k : SlotIx) : (s.sealNotes j).slot k = s.slot k := rfl
@[simp] theorem State.healthOf_sealNotes (j : SlotIx) (p : Port) : (s.sealNotes j).healthOf p = s.healthOf p := rfl
@[simp] theorem State.hold_sealNotes (j : SlotIx) (p : Port) : (s.sealNotes j).hold p = s.hold p := rfl

@[simp] theorem State.writeEnables_pending (q : Port) (w : Word) : (s.writeEnables q w).pending = s.pending := rfl
@[simp] theorem State.writeEnables_inReset (q : Port) (w : Word) : (s.writeEnables q w).inReset = s.inReset := rfl
@[simp] theorem State.writeEnables_lineLow (q : Port) (w : Word) : (s.writeEnables q w).lineLow = s.lineLow := rfl
@[simp] theorem State.writeEnables_slots (q : Port) (w : Word) : (s.writeEnables q w).slots = s.slots := rfl
@[simp] theorem State.writeEnables_queue (q : Port) (w : Word) : (s.writeEnables q w).queue = s.queue := rfl
@[simp] theorem State.writeEnables_due (q : Port) (w : Word) : (s.writeEnables q w).due = s.due := rfl
@[simp] theorem State.writeEnables_ripe (q : Port) (w : Word) : (s.writeEnables q w).ripe = s.ripe := rfl
@[simp] theorem State.writeEnables_flight (q : Port) (w : Word) : (s.writeEnables q w).flight = s.flight := rfl
@[simp] theorem State.writeEnables_nextOrder (q : Port) (w : Word) : (s.writeEnables q w).nextOrder = s.nextOrder := rfl
@[simp] theorem State.writeEnables_holds (q : Port) (w : Word) : (s.writeEnables q w).holds = s.holds := rfl
@[simp] theorem State.writeEnables_holdTimeout (q : Port) (w : Word) : (s.writeEnables q w).holdTimeout = s.holdTimeout := rfl
@[simp] theorem State.writeEnables_notes (q : Port) (w : Word) : (s.writeEnables q w).notes = s.notes := rfl
@[simp] theorem State.writeEnables_lostOwners (q : Port) (w : Word) : (s.writeEnables q w).lostOwners = s.lostOwners := rfl
@[simp] theorem State.writeEnables_time (q : Port) (w : Word) : (s.writeEnables q w).time = s.time := rfl
@[simp] theorem State.writeEnables_prescaler (q : Port) (w : Word) : (s.writeEnables q w).prescaler = s.prescaler := rfl
@[simp] theorem State.writeEnables_health (q : Port) (w : Word) : (s.writeEnables q w).health = s.health := rfl
@[simp] theorem State.writeEnables_detaching (q : Port) (w : Word) : (s.writeEnables q w).detaching = s.detaching := rfl
@[simp] theorem State.writeEnables_detachQueue (q : Port) (w : Word) : (s.writeEnables q w).detachQueue = s.detachQueue := rfl
@[simp] theorem State.writeEnables_reports (q : Port) (w : Word) : (s.writeEnables q w).reports = s.reports := rfl
@[simp] theorem State.writeEnables_token (q : Port) (w : Word) : (s.writeEnables q w).token = s.token := rfl
@[simp] theorem State.writeEnables_exchange (q : Port) (w : Word) : (s.writeEnables q w).exchange = s.exchange := rfl
@[simp] theorem State.writeEnables_restartMark (q : Port) (w : Word) : (s.writeEnables q w).restartMark = s.restartMark := rfl
@[simp] theorem State.writeEnables_freezeMark (q : Port) (w : Word) : (s.writeEnables q w).freezeMark = s.freezeMark := rfl
@[simp] theorem State.writeEnables_task (q : Port) (w : Word) : (s.writeEnables q w).task = s.task := rfl
@[simp] theorem State.writeEnables_watch (q : Port) (w : Word) : (s.writeEnables q w).watch = s.watch := rfl
@[simp] theorem State.writeEnables_freeCount (q : Port) (w : Word) : (s.writeEnables q w).freeCount = s.freeCount := rfl
@[simp] theorem State.slot_writeEnables (q : Port) (w : Word) (k : SlotIx) : (s.writeEnables q w).slot k = s.slot k := rfl
@[simp] theorem State.noteUnit_writeEnables (q : Port) (w : Word) (p : Port) : (s.writeEnables q w).noteUnit p = s.noteUnit p := rfl
@[simp] theorem State.healthOf_writeEnables (q : Port) (w : Word) (p : Port) : (s.writeEnables q w).healthOf p = s.healthOf p := rfl
@[simp] theorem State.hold_writeEnables (q : Port) (w : Word) (p : Port) : (s.writeEnables q w).hold p = s.hold p := rfl

@[simp] theorem State.modFlight_pending (f : Landing → Landing) : (s.modFlight f).pending = s.pending := rfl
@[simp] theorem State.modFlight_inReset (f : Landing → Landing) : (s.modFlight f).inReset = s.inReset := rfl
@[simp] theorem State.modFlight_lineLow (f : Landing → Landing) : (s.modFlight f).lineLow = s.lineLow := rfl
@[simp] theorem State.modFlight_ports (f : Landing → Landing) : (s.modFlight f).ports = s.ports := rfl
@[simp] theorem State.modFlight_slots (f : Landing → Landing) : (s.modFlight f).slots = s.slots := rfl
@[simp] theorem State.modFlight_queue (f : Landing → Landing) : (s.modFlight f).queue = s.queue := rfl
@[simp] theorem State.modFlight_due (f : Landing → Landing) : (s.modFlight f).due = s.due := rfl
@[simp] theorem State.modFlight_ripe (f : Landing → Landing) : (s.modFlight f).ripe = s.ripe := rfl
@[simp] theorem State.modFlight_nextOrder (f : Landing → Landing) : (s.modFlight f).nextOrder = s.nextOrder := rfl
@[simp] theorem State.modFlight_holds (f : Landing → Landing) : (s.modFlight f).holds = s.holds := rfl
@[simp] theorem State.modFlight_holdTimeout (f : Landing → Landing) : (s.modFlight f).holdTimeout = s.holdTimeout := rfl
@[simp] theorem State.modFlight_notes (f : Landing → Landing) : (s.modFlight f).notes = s.notes := rfl
@[simp] theorem State.modFlight_lostOwners (f : Landing → Landing) : (s.modFlight f).lostOwners = s.lostOwners := rfl
@[simp] theorem State.modFlight_time (f : Landing → Landing) : (s.modFlight f).time = s.time := rfl
@[simp] theorem State.modFlight_prescaler (f : Landing → Landing) : (s.modFlight f).prescaler = s.prescaler := rfl
@[simp] theorem State.modFlight_health (f : Landing → Landing) : (s.modFlight f).health = s.health := rfl
@[simp] theorem State.modFlight_detaching (f : Landing → Landing) : (s.modFlight f).detaching = s.detaching := rfl
@[simp] theorem State.modFlight_detachQueue (f : Landing → Landing) : (s.modFlight f).detachQueue = s.detachQueue := rfl
@[simp] theorem State.modFlight_reports (f : Landing → Landing) : (s.modFlight f).reports = s.reports := rfl
@[simp] theorem State.modFlight_token (f : Landing → Landing) : (s.modFlight f).token = s.token := rfl
@[simp] theorem State.modFlight_exchange (f : Landing → Landing) : (s.modFlight f).exchange = s.exchange := rfl
@[simp] theorem State.modFlight_restartMark (f : Landing → Landing) : (s.modFlight f).restartMark = s.restartMark := rfl
@[simp] theorem State.modFlight_freezeMark (f : Landing → Landing) : (s.modFlight f).freezeMark = s.freezeMark := rfl
@[simp] theorem State.modFlight_task (f : Landing → Landing) : (s.modFlight f).task = s.task := rfl
@[simp] theorem State.modFlight_watch (f : Landing → Landing) : (s.modFlight f).watch = s.watch := rfl
@[simp] theorem State.modFlight_freeCount (f : Landing → Landing) : (s.modFlight f).freeCount = s.freeCount := rfl
@[simp] theorem State.port_modFlight (f : Landing → Landing) (p : Port) : (s.modFlight f).port p = s.port p := rfl
@[simp] theorem State.slot_modFlight (f : Landing → Landing) (k : SlotIx) : (s.modFlight f).slot k = s.slot k := rfl
@[simp] theorem State.noteUnit_modFlight (f : Landing → Landing) (p : Port) : (s.modFlight f).noteUnit p = s.noteUnit p := rfl
@[simp] theorem State.healthOf_modFlight (f : Landing → Landing) (p : Port) : (s.modFlight f).healthOf p = s.healthOf p := rfl
@[simp] theorem State.hold_modFlight (f : Landing → Landing) (p : Port) : (s.modFlight f).hold p = s.hold p := rfl

@[simp] theorem State.recordMatch_pending (kind : ActKind) (detail : Bool) (j : SlotIx) (src : Source) : (s.recordMatch kind detail j src).pending = s.pending := rfl
@[simp] theorem State.recordMatch_inReset (kind : ActKind) (detail : Bool) (j : SlotIx) (src : Source) : (s.recordMatch kind detail j src).inReset = s.inReset := rfl
@[simp] theorem State.recordMatch_lineLow (kind : ActKind) (detail : Bool) (j : SlotIx) (src : Source) : (s.recordMatch kind detail j src).lineLow = s.lineLow := rfl
@[simp] theorem State.recordMatch_ports (kind : ActKind) (detail : Bool) (j : SlotIx) (src : Source) : (s.recordMatch kind detail j src).ports = s.ports := rfl
@[simp] theorem State.recordMatch_slots (kind : ActKind) (detail : Bool) (j : SlotIx) (src : Source) : (s.recordMatch kind detail j src).slots = s.slots := rfl
@[simp] theorem State.recordMatch_queue (kind : ActKind) (detail : Bool) (j : SlotIx) (src : Source) : (s.recordMatch kind detail j src).queue = s.queue := rfl
@[simp] theorem State.recordMatch_due (kind : ActKind) (detail : Bool) (j : SlotIx) (src : Source) : (s.recordMatch kind detail j src).due = s.due := rfl
@[simp] theorem State.recordMatch_ripe (kind : ActKind) (detail : Bool) (j : SlotIx) (src : Source) : (s.recordMatch kind detail j src).ripe = s.ripe := rfl
@[simp] theorem State.recordMatch_flight (kind : ActKind) (detail : Bool) (j : SlotIx) (src : Source) : (s.recordMatch kind detail j src).flight = s.flight := rfl
@[simp] theorem State.recordMatch_nextOrder (kind : ActKind) (detail : Bool) (j : SlotIx) (src : Source) : (s.recordMatch kind detail j src).nextOrder = s.nextOrder := rfl
@[simp] theorem State.recordMatch_holds (kind : ActKind) (detail : Bool) (j : SlotIx) (src : Source) : (s.recordMatch kind detail j src).holds = s.holds := rfl
@[simp] theorem State.recordMatch_holdTimeout (kind : ActKind) (detail : Bool) (j : SlotIx) (src : Source) : (s.recordMatch kind detail j src).holdTimeout = s.holdTimeout := rfl
@[simp] theorem State.recordMatch_notes (kind : ActKind) (detail : Bool) (j : SlotIx) (src : Source) : (s.recordMatch kind detail j src).notes = s.notes := rfl
@[simp] theorem State.recordMatch_lostOwners (kind : ActKind) (detail : Bool) (j : SlotIx) (src : Source) : (s.recordMatch kind detail j src).lostOwners = s.lostOwners := rfl
@[simp] theorem State.recordMatch_time (kind : ActKind) (detail : Bool) (j : SlotIx) (src : Source) : (s.recordMatch kind detail j src).time = s.time := rfl
@[simp] theorem State.recordMatch_prescaler (kind : ActKind) (detail : Bool) (j : SlotIx) (src : Source) : (s.recordMatch kind detail j src).prescaler = s.prescaler := rfl
@[simp] theorem State.recordMatch_health (kind : ActKind) (detail : Bool) (j : SlotIx) (src : Source) : (s.recordMatch kind detail j src).health = s.health := rfl
@[simp] theorem State.recordMatch_detaching (kind : ActKind) (detail : Bool) (j : SlotIx) (src : Source) : (s.recordMatch kind detail j src).detaching = s.detaching := rfl
@[simp] theorem State.recordMatch_detachQueue (kind : ActKind) (detail : Bool) (j : SlotIx) (src : Source) : (s.recordMatch kind detail j src).detachQueue = s.detachQueue := rfl
@[simp] theorem State.recordMatch_reports (kind : ActKind) (detail : Bool) (j : SlotIx) (src : Source) : (s.recordMatch kind detail j src).reports = s.reports := rfl
@[simp] theorem State.recordMatch_token (kind : ActKind) (detail : Bool) (j : SlotIx) (src : Source) : (s.recordMatch kind detail j src).token = s.token := rfl
@[simp] theorem State.recordMatch_exchange (kind : ActKind) (detail : Bool) (j : SlotIx) (src : Source) : (s.recordMatch kind detail j src).exchange = s.exchange := rfl
@[simp] theorem State.recordMatch_restartMark (kind : ActKind) (detail : Bool) (j : SlotIx) (src : Source) : (s.recordMatch kind detail j src).restartMark = s.restartMark := rfl
@[simp] theorem State.recordMatch_freezeMark (kind : ActKind) (detail : Bool) (j : SlotIx) (src : Source) : (s.recordMatch kind detail j src).freezeMark = s.freezeMark := rfl
@[simp] theorem State.recordMatch_task (kind : ActKind) (detail : Bool) (j : SlotIx) (src : Source) : (s.recordMatch kind detail j src).task = s.task := rfl
@[simp] theorem State.recordMatch_freeCount (kind : ActKind) (detail : Bool) (j : SlotIx) (src : Source) : (s.recordMatch kind detail j src).freeCount = s.freeCount := rfl
@[simp] theorem State.port_recordMatch (kind : ActKind) (detail : Bool) (j : SlotIx) (src : Source) (p : Port) : (s.recordMatch kind detail j src).port p = s.port p := rfl
@[simp] theorem State.slot_recordMatch (kind : ActKind) (detail : Bool) (j : SlotIx) (src : Source) (k : SlotIx) : (s.recordMatch kind detail j src).slot k = s.slot k := rfl
@[simp] theorem State.noteUnit_recordMatch (kind : ActKind) (detail : Bool) (j : SlotIx) (src : Source) (p : Port) : (s.recordMatch kind detail j src).noteUnit p = s.noteUnit p := rfl
@[simp] theorem State.healthOf_recordMatch (kind : ActKind) (detail : Bool) (j : SlotIx) (src : Source) (p : Port) : (s.recordMatch kind detail j src).healthOf p = s.healthOf p := rfl
@[simp] theorem State.hold_recordMatch (kind : ActKind) (detail : Bool) (j : SlotIx) (src : Source) (p : Port) : (s.recordMatch kind detail j src).hold p = s.hold p := rfl

/-! ### What a reader of the updated record finds -/

theorem State.port_modPort (p q : Port) (f : PortUnit → PortUnit) :
    (s.modPort q f).port p = if p = q then f (s.port q) else s.port p := PerPort.get_set _ _ _ _

@[simp] theorem State.port_modPort_self (p : Port) (f : PortUnit → PortUnit) : (s.modPort p f).port p = f (s.port p) :=
  PerPort.get_set_self _ _ _

theorem State.slot_modSlot (k j : SlotIx) (f : Slot → Slot) :
    (s.modSlot j f).slot k = if k = j then f (s.slot j) else s.slot k := Table.get_set _ _ _ _

@[simp] theorem State.slot_modSlot_self (k : SlotIx) (f : Slot → Slot) : (s.modSlot k f).slot k = f (s.slot k) :=
  Table.get_set_self _ _ _

@[simp] theorem State.slot_mapSlots (k : SlotIx) (f : Slot → Slot) : (s.mapSlots f).slot k = f (s.slot k) :=
  Table.get_map _ _ _

theorem State.noteUnit_modNotes (p q : Port) (f : NoteUnit → NoteUnit) :
    (s.modNotes q f).noteUnit p = if p = q then f (s.noteUnit q) else s.noteUnit p := PerPort.get_set _ _ _ _

@[simp] theorem State.noteUnit_modNotes_self (p : Port) (f : NoteUnit → NoteUnit) :
    (s.modNotes p f).noteUnit p = f (s.noteUnit p) := PerPort.get_set_self _ _ _

theorem State.healthOf_modHealth (p q : Port) (f : Health → Health) :
    (s.modHealth q f).healthOf p = if p = q then f (s.healthOf q) else s.healthOf p := PerPort.get_set _ _ _ _

@[simp] theorem State.healthOf_modHealth_self (p : Port) (f : Health → Health) :
    (s.modHealth p f).healthOf p = f (s.healthOf p) := PerPort.get_set_self _ _ _

theorem State.hold_setHold (p q : Port) (h : Option Hold) : (s.setHold q h).hold p = if p = q then h else s.hold p :=
  PerPort.get_set _ _ _ _

@[simp] theorem State.hold_setHold_self (p : Port) (h : Option Hold) : (s.setHold p h).hold p = h := PerPort.get_set_self _ _ _

@[simp] theorem State.holdSet_has (k : SlotIx) (p : Port) : (s.holdSet k).has p = s.holding p k := PortSet.has_ofFn _ _

theorem State.holding_iff (p : Port) (k : SlotIx) : s.holding p k = true ↔ ∃ h, s.hold p = some h ∧ h.slot = k := by
  unfold State.holding
  cases s.hold p <;> simp

@[simp] theorem State.subscribers_has (k : SlotIx) (p : Port) : (s.subscribers k).has p = s.subscribes k p :=
  PortSet.has_ofFn _ _

@[simp] theorem State.reset_port (p : Port) : State.reset.port p = PortUnit.reset := PerPort.get_fill _ _
@[simp] theorem State.reset_slot (k : SlotIx) : State.reset.slot k = Slot.cleared := Table.get_fill _ _
@[simp] theorem State.reset_noteUnit (p : Port) : State.reset.noteUnit p = NoteUnit.reset := PerPort.get_fill _ _
@[simp] theorem State.reset_healthOf (p : Port) : State.reset.healthOf p = Health.reset := PerPort.get_fill _ _
@[simp] theorem State.reset_hold (p : Port) : State.reset.hold p = none := PerPort.get_fill _ _

end

end Machine

end Sys2Proof
end

