-- ==== Sys2Proof/Laws/Ops.lean ====
section
/-! SUPPORT. What the shared operations can do. A `…_frame` lemma names the only fields that its operation may change; the others
say what an operation answers in the cases that its callers meet. -/

namespace Sys2Proof.Machine

open Sys2Proof

/-! ### Folds over ports and slots -/

theorem foldl_keeps {α : Type} {P : State → Prop} {f : State → α → State} (h : ∀ u a, P u → P (f u a)) (l : List α) (s : State)
    (hs : P s) : P (l.foldl f s) := by
  induction l generalizing s with
  | nil => exact hs
  | cons x xs ih => exact ih _ (h _ _ hs)

theorem foldl_eq_self {α : Type} {f : State → α → State} (l : List α) (s : State) (h : ∀ a ∈ l, f s a = s) : l.foldl f s = s := by
  induction l with
  | nil => rfl
  | cons x xs ih =>
    rw [List.foldl_cons, h x (List.mem_cons_self ..)]
    exact ih fun a ha => h a (List.mem_cons_of_mem _ ha)

/-! ### Reports and the Health Unit -/

theorem State.takeReportsOf_nil (s : State) (p : Port) : s.takeReportsOf [] p = s := by
  simp [State.takeReportsOf]

theorem State.takeReportsOf_one (s : State) (r : Report) (p : Port) :
    s.takeReportsOf [r] p = if r.port = p then s.takeReport r else s := by
  unfold State.takeReportsOf
  by_cases h : r.port = p
  · cases hb : r.byNotification <;> simp [h, hb]
  · simp [h]

/-- With no report made, an event leaves nothing for the Health Unit to take. -/
theorem State.settle_nil (s : State) (h : s.reports = []) : s.settle = s := by
  have e : { s with reports := [] } = s := by rw [← h]
  unfold State.settle
  simp only [h, e, Port.all, List.foldl_cons, List.foldl_nil, takeReportsOf_nil]
  simp [State.waitToDetach]

/-- A single report is taken, and the mark it may set joins the waiting detachments. -/
theorem State.settle_one (s : State) (r : Report) (h : s.reports = [r]) :
    s.settle =
      let t := { s with reports := [] }.takeReport r
      t.waitToDetach (Port.all.filter fun p => (t.healthOf p).mark && !(s.healthOf p).mark) := by
  unfold State.settle
  simp only [h, Port.all, List.foldl_cons, List.foldl_nil, takeReportsOf_one]
  cases h : r.port <;> simp

/-- Where no mark has been set, none joins the waiting detachments. -/
theorem State.waitToDetach_unmarked (s t : State) (h : ∀ p, (t.healthOf p).mark = true → (s.healthOf p).mark = true) :
    t.waitToDetach (Port.all.filter fun p => (t.healthOf p).mark && !(s.healthOf p).mark) = t := by
  have e : (Port.all.filter fun p => (t.healthOf p).mark && !(s.healthOf p).mark) = [] := by
    rw [List.filter_eq_nil_iff]
    intro p _
    have := h p
    revert this
    cases (t.healthOf p).mark <;> cases (s.healthOf p).mark <;> simp
  rw [e]
  rfl

theorem State.takeDisturbance_frame (s : State) (p : Port) : s.takeDisturbance p = { s with health := (s.takeDisturbance p).health } := by
  unfold State.takeDisturbance
  split <;> rfl

theorem State.answerDetached_frame (s : State) (p : Port) : s.answerDetached p = { s with ports := (s.answerDetached p).ports } := by
  unfold State.answerDetached
  split
  · split <;> rfl
  · rfl

theorem State.markDetaching_frame (s : State) (p : Port) (c : DetachCause) :
    s.markDetaching p c = { s with health := (s.markDetaching p c).health, ports := (s.markDetaching p c).ports } := by
  unfold State.markDetaching
  rw [State.answerDetached_frame]
  rfl

theorem State.takePenalty_frame (s : State) (p : Port) (n : Nat) :
    s.takePenalty p n = { s with health := (s.takePenalty p n).health, ports := (s.takePenalty p n).ports } := by
  have a := State.takeDisturbance_frame s p
  have b := State.markDetaching_frame s p .score
  unfold State.takePenalty
  simp only
  split
  · rfl
  · split
    · split
      · rfl
      · exact b
    · split
      · rfl
      · exact b
    · rfl
    · rw [a]

theorem State.takeReport_frame (s : State) (r : Report) :
    s.takeReport r = { s with health := (s.takeReport r).health, ports := (s.takeReport r).ports } := by
  unfold State.takeReport
  split
  · exact State.takePenalty_frame ..
  · unfold State.takeCredit
    simp only
    split <;> rfl
  · rw [State.takeDisturbance_frame]

theorem State.takeReportsOf_frame (s : State) (rs : List Report) (p : Port) :
    s.takeReportsOf rs p =
      { s with health := (s.takeReportsOf rs p).health, ports := (s.takeReportsOf rs p).ports,
               freeCount := (s.takeReportsOf rs p).freeCount } := by
  have key : ∀ (l : List Report) (u : State), u = { s with health := u.health, ports := u.ports, freeCount := u.freeCount } →
      l.foldl State.takeReport u =
        { s with health := (l.foldl State.takeReport u).health, ports := (l.foldl State.takeReport u).ports,
                 freeCount := (l.foldl State.takeReport u).freeCount } := by
    intro l u hu
    refine foldl_keeps (P := fun u => u = { s with health := u.health, ports := u.ports, freeCount := u.freeCount }) ?_ l u hu
    intro u r hu
    rw [State.takeReport_frame]
    rw [hu]
  unfold State.takeReportsOf
  simp only
  split
  · exact key _ _ rfl
  · apply key
    unfold State.pick
    split <;> rfl

/-- The Health Unit's taking of an event's reports touches the health records, the command units, the waiting detachments and the
count of free choices, and empties the inbox. -/
theorem State.settle_frame (s : State) :
    s.settle =
      { s with health := s.settle.health, ports := s.settle.ports, detachQueue := s.settle.detachQueue, reports := [],
               freeCount := s.settle.freeCount } := by
  have key : ∀ (rs : List Report) (l : List Port),
      let u := l.foldl (fun u p => State.takeReportsOf u rs p) { s with reports := [] }
      u = { s with health := u.health, ports := u.ports, reports := [], freeCount := u.freeCount } := by
    intro rs l
    refine foldl_keeps (P := fun u => u = { s with health := u.health, ports := u.ports, reports := [], freeCount := u.freeCount })
      ?_ l _ rfl
    intro u p hu
    rw [State.takeReportsOf_frame]
    rw [hu]
  have h := key s.reports Port.all
  unfold State.settle State.waitToDetach
  simp only at h ⊢
  split <;> rw [h]

/-! ### Events and the command unit -/

theorem event_next {f : State → State} {s : State} (h : s.inReset = false) : event f s = .next (f s).settle := by
  simp [event, h]

theorem event_inReset {f : State → State} {s : State} (h : s.inReset = true) : event f s = .next s := by
  simp [event, h]

/-- A bus cycle of a port whose Port Unit takes cycles. -/
theorem cycle_next {p : Port} {f : State → State} {s : State} (h : s.inReset = false) (hl : s.lineLow.has p = false) :
    cycle p f s = .next (f s).settle := by
  simp [cycle, event_next h, hl]

/-- A bus cycle of a port whose PxRST_n is low changes nothing. -/
theorem cycle_low {p : Port} {f : State → State} {s : State} (h0 : s.reports = []) (hl : s.lineLow.has p = true) :
    cycle p f s = .next s := by
  by_cases h : s.inReset = true
  · exact event_inReset h
  · simp only [Bool.not_eq_true] at h
    simp [cycle, event_next h, hl, State.settle_nil s h0]

/-- The Health Unit has taken every report. -/
theorem State.settle_reports (s : State) : s.settle.reports = [] := by
  rw [State.settle_frame]

/-- A second taking finds no report. -/
theorem State.settle_settle (s : State) : s.settle.settle = s.settle := State.settle_nil _ s.settle_reports


theorem State.post_busy {s : State} {p : Port} {b : Busy} (h : (s.port p).unit.busy = some b) (r : Result) :
    s.post p r = s.answered p r := by
  simp [State.post, State.answered, State.modPort, h, CommandUnit.posted]

theorem State.post_idle {s : State} {p : Port} (h : (s.port p).unit.busy = none) (r : Result) : s.post p r = s := by
  unfold State.port at h
  simp [State.post, State.modPort, State.port, h]

@[simp] theorem State.busyWith_busy (s : State) (p : Port) (c : Command) (n : Byte) (ph : Phase) :
    ((s.busyWith p c n ph).port p).unit.busy = some ⟨c, n, ph⟩ := by
  simp [State.busyWith, State.port]

@[simp] theorem State.answered_busyWith (s : State) (p : Port) (c : Command) (n : Byte) (ph : Phase) (r : Result) :
    (s.busyWith p c n ph).answered p r = s.answered p r := by
  simp [State.busyWith, State.answered, State.port]

theorem State.acceptWrite_eq (s : State) (p : Port) (c : Command) (n : Byte) : s.acceptWrite p c n = s.busyWith p c n .taken := rfl

/-- A command of a port that is ready reaches its block. -/
theorem State.writeCommand_ready {s : State} {p : Port} (h : s.ready p) {c : Command} (hc : c ≠ .resetPort) (n : Byte) :
    s.writeCommand p c n = takeCommand c p n (s.busyWith p c n .taken) := by
  obtain ⟨-, hb, hi, hm, hx, -⟩ := h
  have hr : (s.busyWith p c n .taken).refusesDetached p c = false := by
    have e : (s.busyWith p c n .taken).healthOf p = s.healthOf p := rfl
    simp only [State.refusesDetached, e, hm]
    simp only [State.inside, Bool.not_eq_true'] at hi
    rw [hi]
    split
    · have : (s.healthOf p).state ≠ .rejoining := by intro e; rw [e] at hi; cases hi
      simp [this]
    · rfl
  have hx' : (s.busyWith p c n .taken).exchange = s.exchange := rfl
  simp [State.writeCommand, hc, hb, State.acceptWrite_eq, hr, hx', hx]

/-- What a refusal comes to once its report is taken: the answer, and a penalty or a disturbance. -/
theorem State.refuse_settle {s : State} {p : Port} {r : Result} (h0 : s.reports = []) :
    (s.refuse p r).settle =
      let t := if r.penalised then (s.post p r).takePenalty p 4 else (s.post p r).takeDisturbance p
      t.waitToDetach (Port.all.filter fun q => (t.healthOf q).mark && !(s.healthOf q).mark) := by
  have h1 : ∀ k, ((s.post p r).report p k).reports = [{ port := p, kind := k, byNotification := false }] := by
    intro k
    simp [State.report, h0]
  have e : ∀ k, { (s.post p r).report p k with reports := [] } = s.post p r := by
    intro k
    have : (s.post p r).reports = [] := h0
    simp only [State.report]
    rw [← this]
  unfold State.refuse
  rw [State.settle_one _ _ (h1 _)]
  simp only [e, State.takeReport, Config.refusalPenalty]
  cases r.penalised <;> rfl

theorem slotOf_none {n : Byte} (h : 95 < n.toNat) : slotOf n = none := by
  simp [slotOf]
  omega

theorem slotOf_some {n : Byte} {k : SlotIx} (h : k.val = n.toNat) : slotOf n = some k := by
  unfold slotOf
  rw [dif_pos (by omega)]
  congr 1
  exact Fin.ext h.symm

theorem portOfNumber_some {w : Word} {q : Port} (h : w.toNat = q.number) : portOfNumber w = some q := by
  have : w = BitVec.ofNat 16 q.number := by
    apply BitVec.eq_of_toNat_eq
    rw [h]
    cases q <;> rfl
  subst this
  cases q <;> decide

theorem portOfNumber_none {w : Word} (h : 3 < w.toNat) : portOfNumber w = none := by
  unfold portOfNumber
  rw [List.find?_eq_none]
  intro q _
  simp only [beq_iff_eq]
  intro e
  subst e
  revert h
  cases q <;> decide

/-! ### Notes -/

theorem State.appendNote_frame (s : State) (p : Port) (n : Note) :
    s.appendNote p n = { s with notes := (s.appendNote p n).notes, reports := (s.appendNote p n).reports } := by
  unfold State.appendNote
  split <;> rfl

/-- An append touches no queue but the port's own. -/
theorem State.noteUnit_appendNote_ne (s : State) {p q : Port} (h : q ≠ p) (n : Note) : (s.appendNote p n).noteUnit q = s.noteUnit q := by
  unfold State.appendNote
  split <;> simp [State.noteUnit, State.modNotes, State.noteReport, PerPort.get_set_ne _ h]

/-- An append leaves the port's filters and its delivery state. -/
theorem State.appendNote_keeps (s : State) (p q : Port) (n : Note) :
    ((s.appendNote p n).noteUnit q).filters = (s.noteUnit q).filters ∧
      ((s.appendNote p n).noteUnit q).delivery = (s.noteUnit q).delivery := by
  unfold State.appendNote
  by_cases h : q = p
  · subst h
    split <;> simp [State.noteUnit, State.modNotes, State.noteReport]
  · split <;> simp [State.noteUnit, State.modNotes, State.noteReport, PerPort.get_set_ne _ h]

theorem State.appendEach_frame (s : State) (ps : PortSet) (n : Port → Note) :
    s.appendEach ps n = { s with notes := (s.appendEach ps n).notes, reports := (s.appendEach ps n).reports } := by
  unfold State.appendEach
  refine foldl_keeps (P := fun u => u = { s with notes := u.notes, reports := u.reports }) ?_ Port.all s rfl
  intro u p hu
  split
  · rw [State.appendNote_frame]
    rw [hu]
  · exact hu

theorem State.tell_frame (s : State) (ps : PortSet) (r : Reason) (k : SlotIx) :
    s.tell ps r k = { s with notes := (s.tell ps r k).notes, reports := (s.tell ps r k).reports } :=
  State.appendEach_frame ..

theorem State.tellDropped_frame (s : State) (src : Source) (k : SlotIx) :
    s.tellDropped src k = { s with notes := (s.tellDropped src k).notes, reports := (s.tellDropped src k).reports } := by
  unfold State.tellDropped
  split
  · split
    · exact State.appendNote_frame ..
    · rfl
  · rfl

theorem State.timeOutRequesters_frame (s : State) (k : SlotIx) :
    s.timeOutRequesters k =
      { s with slots := s.slots.set k (s.slot k).endRound, notes := (s.timeOutRequesters k).notes,
               reports := (s.timeOutRequesters k).reports } := by
  unfold State.timeOutRequesters
  rw [State.tell_frame]
  rfl

/-! ### Commands finished together, and freezing -/

theorem State.inHand_post (s : State) (p q : Port) (r : Result) (c : Command) :
    (s.post p r).inHand q c = (s.inHand q c && q != p) := by
  unfold State.inHand State.post State.modPort State.port
  by_cases h : q = p
  · subst h
    simp only [PerPort.get_set_self]
    cases hb : (s.ports.get q).unit.busy <;> simp [hb, CommandUnit.posted]
  · simp [PerPort.get_set_ne _ h, h]

theorem State.inHand_busy {s : State} {p : Port} {c : Command} (h : s.inHand p c = true) : ∃ b, (s.port p).unit.busy = some b := by
  unfold State.inHand at h
  split at h
  · exact ⟨_, ‹_›⟩
  · cases h

/-- Every port whose command `c` is in hand is answered DONE, and no other port is touched. -/
theorem State.completeAll_eq (s : State) (c : Command) : s.completeAll c = s.finished fun p => s.inHand p c := by
  have step : ∀ (t : State) (p : Port), (if t.inHand p c then t.post p .done else t) =
      { t with ports := t.ports.set p (if t.inHand p c then
        { t.port p with unit := { (t.port p).unit with busy := none, result := .done, done := true } } else t.port p) } := by
    intro t p
    cases h : t.inHand p c
    · simp [State.port]
    · obtain ⟨b, hb⟩ := State.inHand_busy h
      simp [State.post_busy hb, State.answered]
  unfold State.completeAll State.finished
  simp only [Port.all, List.foldl_cons, List.foldl_nil, step]
  rfl

theorem State.completeAll_frame (s : State) (c : Command) : s.completeAll c = { s with ports := (s.completeAll c).ports } := by
  rw [State.completeAll_eq]
  rfl

theorem State.inHand_finished (s : State) (f : Port → Bool) (q : Port) (c : Command) :
    (s.finished f).inHand q c = (s.inHand q c && !f q) := by
  cases h : f q <;> simp [State.inHand, State.finished, State.port, h]

theorem State.finished_finished (s : State) (f g : Port → Bool) : (s.finished f).finished g = s.finished fun q => f q || g q := by
  unfold State.finished
  congr 1
  apply PerPort.ext_get
  intro q
  cases hf : f q <;> cases hg : g q <;> simp [State.port, hf, hg]

/-- The exchange becomes FROZEN with no value on the due list. -/
theorem State.becomeFrozen_of_due_nil (s : State) (h : s.due = []) : s.becomeFrozen = s.frozenNow := by
  have e : ({ s with exchange := .frozen, freezeMark := false, task := none } : State).dueToRipe =
      { s with exchange := .frozen, freezeMark := false, task := none } := by
    unfold State.dueToRipe
    simp [h]
  unfold State.becomeFrozen State.frozenNow
  simp only [e, State.completeAll_eq, State.finished_finished, State.inHand_finished]
  congr 1
  funext q
  show _ = s.waitsForFreeze q
  unfold State.waitsForFreeze
  change (s.inHand q .freeze || (s.inHand q .step && !s.inHand q .freeze) ||
    (s.inHand q .resume && !(s.inHand q .freeze || (s.inHand q .step && !s.inHand q .freeze)))) = _
  cases s.inHand q .freeze <;> cases s.inHand q .step <;> cases s.inHand q .resume <;> rfl

theorem State.ripen_frame (s : State) (k : SlotIx) : s.ripen k = { s with ripe := (s.ripen k).ripe } := by
  unfold State.ripen
  split <;> rfl

theorem State.dueToRipe_frame (s : State) :
    s.dueToRipe = { s with slots := s.dueToRipe.slots, due := [], ripe := s.dueToRipe.ripe } := by
  unfold State.dueToRipe
  refine foldl_keeps (P := fun u => u = { s with slots := u.slots, due := [], ripe := u.ripe }) ?_ s.due _ rfl
  intro u o hu
  rw [State.ripen_frame, hu]
  rfl

/-- The exchange becomes FROZEN: what that can change. -/
theorem State.becomeFrozen_frame (s : State) :
    s.becomeFrozen =
      { s with ports := s.becomeFrozen.ports, slots := s.becomeFrozen.slots, due := [], ripe := s.becomeFrozen.ripe,
               exchange := .frozen, freezeMark := false, task := none } := by
  unfold State.becomeFrozen
  simp only
  rw [State.completeAll_frame, State.completeAll_frame, State.completeAll_frame, State.dueToRipe_frame]

/-- A freeze called for: what that can change. -/
theorem State.callFreeze_frame (s : State) :
    s.callFreeze =
      { s with ports := s.callFreeze.ports, slots := s.callFreeze.slots, due := s.callFreeze.due, ripe := s.callFreeze.ripe,
               exchange := s.callFreeze.exchange, freezeMark := s.callFreeze.freezeMark, task := s.callFreeze.task } := by
  unfold State.callFreeze
  split
  · split
    · rfl
    · rw [State.becomeFrozen_frame]
  · simp only
    split
    · split
      · rfl
      · rw [State.becomeFrozen_frame]
    · rfl
    · rfl
  · rfl
  · rfl
  · rfl

/-- An act offered to the watch: what that can change. -/
theorem State.offerAct_frame (s : State) (a : ActKind) (d : Bool) (k : SlotIx) (src : Source) :
    let t := s.offerAct a d k src
    t = { s with ports := t.ports, slots := t.slots, due := t.due, ripe := t.ripe, exchange := t.exchange,
                 freezeMark := t.freezeMark, task := t.task, watch := t.watch } := by
  unfold State.offerAct State.recordMatch
  simp only
  split
  · split
    · rfl
    · rw [State.callFreeze_frame]
    · rw [State.callFreeze_frame]
  · rfl

theorem State.offerAct_unwatched {s : State} {a : ActKind} {d : Bool} {k : SlotIx} {src : Source}
    (h : s.watch.hits a k src = false) : s.offerAct a d k src = s := by
  simp [State.offerAct, h]

/-! ### Landings and holds -/

/-- A value that is about to land either begins to land from where it left, with or without a freeze called for, or stays. -/
theorem State.tryLanding_cases (s : State) (o : Offer) (d : Bool) (gone stays : State → State) :
    let t := s.recordLanding o d
    (s.answerFor o = .proceed ∧ s.tryLanding o d gone stays = (gone t).beginLanding o) ∨
      (s.answerFor o = .freezeAfter ∧ s.tryLanding o d gone stays = ((gone t).beginLanding o).callFreeze) ∨
      (s.answerFor o = .freezeBefore ∧ s.tryLanding o d gone stays = (stays t).becomeFrozen) := by
  unfold State.tryLanding
  cases s.answerFor o <;> simp

/-- A value that the watch does not meet lands. -/
theorem State.tryLanding_unwatched {s : State} {o : Offer} {d : Bool} {gone stays : State → State}
    (h : o.passed = true ∨ s.watch.hits .landing o.slot o.source = false) :
    s.tryLanding o d gone stays = (gone s).beginLanding o := by
  rcases h with h | h <;> simp [State.tryLanding, State.recordLanding, State.answerFor, h]

theorem State.recordLanding_frame (s : State) (o : Offer) (d : Bool) :
    s.recordLanding o d = { s with watch := (s.recordLanding o d).watch } := by
  unfold State.recordLanding
  split <;> rfl

/-- What the report of an emptied hold set can change at the Commit Unit. -/
theorem State.commitOnEmpty_frame (s : State) (k : SlotIx) :
    let t := s.commitOnEmpty k
    t = { s with ports := t.ports, slots := t.slots, due := t.due, ripe := t.ripe, flight := t.flight, exchange := t.exchange,
                 freezeMark := t.freezeMark, task := t.task, watch := t.watch } := by
  unfold State.commitOnEmpty
  simp only
  split
  · rfl
  · rename_i o _
    split
    · split
      · rfl
      · rcases State.tryLanding_cases s o true (fun t => t.setParked k none) (fun t => (t.setParked k (some o.marked)).ripen k)
          with ⟨-, e⟩ | ⟨-, e⟩ | ⟨-, e⟩
        · rw [e, State.recordLanding_frame]
          rfl
        · rw [e, State.callFreeze_frame, State.recordLanding_frame]
          rfl
        · rw [e, State.becomeFrozen_frame, State.ripen_frame, State.recordLanding_frame]
          rfl
    · rfl
    · rw [State.ripen_frame]
    · rw [State.ripen_frame]
    · rfl

theorem State.viewsGone_frame (s : State) (k : SlotIx) : s.viewsGone k = { s with ports := (s.viewsGone k).ports } := by
  unfold State.viewsGone
  refine foldl_keeps (P := fun u => u = { s with ports := u.ports }) ?_ Port.all s rfl
  intro u p hu
  split
  · rw [State.setPhase, State.modPort]
    rw [hu]
  · exact hu

/-- What the completion of a retirement can change. -/
theorem State.completeRetirement_frame (s : State) (k : SlotIx) :
    let t := s.completeRetirement k
    t = { s with ports := t.ports, slots := s.slots.set k Slot.cleared, notes := t.notes, reports := t.reports } := by
  unfold State.completeRetirement
  simp only
  rw [State.viewsGone_frame, State.tell_frame]
  rfl

theorem State.testRetirement_frame (s : State) (k : SlotIx) :
    let t := s.testRetirement k
    t = { s with ports := t.ports, slots := t.slots, notes := t.notes, reports := t.reports } := by
  unfold State.testRetirement
  simp only
  split
  · rw [State.completeRetirement_frame]
  · rfl

/-- What the end of a hold can change. -/
theorem State.endHold_frame (s : State) (p : Port) :
    let t := s.endHold p
    t = { s with ports := t.ports, slots := t.slots, due := t.due, ripe := t.ripe, flight := t.flight, exchange := t.exchange,
                 freezeMark := t.freezeMark, task := t.task, watch := t.watch, notes := t.notes, reports := t.reports,
                 holds := s.holds.set p none } := by
  unfold State.endHold State.holdLeft
  simp only
  split
  · rename_i h
    have : s.holds.set p none = s.holds := by
      unfold State.hold at h
      rw [← h, PerPort.set_get_self]
    rw [this]
  · split
    · rw [State.testRetirement_frame, State.commitOnEmpty_frame]
      rfl
    · rfl

theorem State.holdSet_isEmpty (s : State) (k : SlotIx) : (s.holdSet k).isEmpty = true ↔ ∀ p, s.holding p k = false := by
  simp [PortSet.isEmpty_iff, State.holdSet]

/-! ### Acceptance order -/

/-- `insertBy` puts its value at the place that its key gives it. -/
theorem insertBy_split {α : Type} (key : α → Nat) (x : α) (l : List α) :
    ∃ before after, l = before ++ after ∧ insertBy key x l = before ++ x :: after ∧ (∀ y ∈ before, key y ≤ key x) ∧
      ∀ y ∈ after.head?, key x < key y := by
  induction l with
  | nil => exact ⟨[], [], rfl, rfl, by simp, by simp⟩
  | cons y ys ih =>
    unfold insertBy
    split
    · obtain ⟨b, a, h1, h2, h3, h4⟩ := ih
      refine ⟨y :: b, a, by simp [h1], by simp [h2], ?_, h4⟩
      intro z hz
      rcases List.mem_cons.mp hz with rfl | hz
      · assumption
      · exact h3 z hz
    · exact ⟨[], y :: ys, rfl, rfl, by simp, by simp; omega⟩

theorem mem_insertBy {α : Type} (key : α → Nat) (x y : α) (l : List α) : y ∈ insertBy key x l ↔ y = x ∨ y ∈ l := by
  obtain ⟨b, a, h1, h2, -, -⟩ := insertBy_split key x l
  rw [h2, h1]
  simp only [List.mem_append, List.mem_cons]
  tauto

theorem State.mem_ripen (s : State) (j k : SlotIx) : j ∈ (s.ripen k).ripe ↔ j = k ∨ j ∈ s.ripe := by
  unfold State.ripen
  split
  · rename_i h
    constructor
    · exact .inr
    · rintro (rfl | h')
      · exact h
      · exact h'
  · exact mem_insertBy ..

/-! ### Free choices -/

theorem State.pick_frame (s : State) (n : Nat) : (s.pick n).2 = { s with freeCount := (s.pick n).2.freeCount } := by
  unfold State.pick
  split <;> rfl

theorem State.pick_lt (s : State) {n : Nat} (h : 0 < n) : (s.pick n).1 < n := by
  unfold State.pick
  split
  · exact h
  · exact Nat.mod_lt _ h

theorem shuffleFuel_frame {α : Type} (fuel : Nat) (l : List α) (s : State) :
    (shuffleFuel fuel l s).2 = { s with freeCount := (shuffleFuel fuel l s).2.freeCount } := by
  induction fuel generalizing l s with
  | zero => rfl
  | succ n ih =>
    unfold shuffleFuel
    split
    · rfl
    · simp only
      rw [ih, State.pick_frame]

/-- A free order has the members of the list, each as often. -/
theorem shuffleFuel_perm {α : Type} (fuel : Nat) (l : List α) (s : State) (h : l.length ≤ fuel) :
    (shuffleFuel fuel l s).1.Perm l := by
  induction fuel generalizing l s with
  | zero =>
    have : l = [] := List.eq_nil_of_length_eq_zero (Nat.le_zero.mp h)
    subst this
    exact List.Perm.refl _
  | succ n ih =>
    unfold shuffleFuel
    split
    · exact List.Perm.refl _
    · rename_i x rest
      simp only
      have hc := s.pick_lt (n := (x :: rest).length) (by simp)
      rw [List.getElem?_eq_getElem hc, Option.getD_some]
      refine List.Perm.trans (List.Perm.cons _ (ih _ _ ?_)) (List.getElem_cons_eraseIdx_perm hc)
      rw [List.length_eraseIdx_of_lt hc]
      simp only [List.length_cons] at h ⊢
      omega

theorem State.shuffle_frame {α : Type} (s : State) (l : List α) : (s.shuffle l).2 = { s with freeCount := (s.shuffle l).2.freeCount } :=
  shuffleFuel_frame ..

theorem State.shuffle_perm {α : Type} (s : State) (l : List α) : (s.shuffle l).1.Perm l := shuffleFuel_perm _ _ _ (Nat.le_refl _)

/-! ### The end of a landing -/

/-- The ways a landing's end is taken: by the Control Unit alone, with the completion of a retirement, or with the grant of a VIEW
before or after it. -/
theorem State.landingOver_cases (s : State) (k : SlotIx) :
    s.landingOver k = s.landingEnded ∨
      ∃ n, let t := { s with freeCount := n }
        s.landingOver k = t.landingEnded.completeRetirement k ∨
          ∃ p, s.landingOver k = t.landingEnded.grantWaiting p ∨ s.landingOver k = (t.grantWaiting p).landingEnded := by
  unfold State.landingOver
  split
  · refine .inr ?_
    split
    · exact ⟨s.freeCount, .inl rfl⟩
    · next w ws _ =>
      dsimp only
      have h1 := s.pick_frame ((w :: ws).length + 1)
      generalize s.pick ((w :: ws).length + 1) = c at h1 ⊢
      split
      · next p _ =>
        have h2 := c.2.pick_frame 2
        rw [h1] at h2
        rw [h1]
        generalize State.pick { s with freeCount := c.2.freeCount } 2 = d at h2 ⊢
        split
        · exact ⟨d.2.freeCount, .inr ⟨p, .inl (by rw [h2])⟩⟩
        · exact ⟨d.2.freeCount, .inr ⟨p, .inr (by rw [h2])⟩⟩
      · exact ⟨c.2.freeCount, .inl (by rw [h1])⟩
  · exact .inl rfl

end Sys2Proof.Machine
end

