-- ==== Sys2Proof/Tests/Slice0.lean ====
section
/-! SUPPORT. Tests of the model, each on one step of a small state, with the results that the spec gives; and for each obligation with
hypotheses, a state and operands that meet them, clause by clause and at the boundaries of their ranges. -/

open Sys2Proof Sys2Proof.Machine

namespace Sys2Proof.Tests

/-! ### Small states -/

/-- The state after a command that answers one. -/
def after (c : Instr) (s : State) : State :=
  match exec c s with
  | .next t => t
  | .fault _ => s
  | .refused _ => s

/-- A configuration with every timer on: owner A, STATE, OWNER_ANSWERS. -/
def config : SlotConfig :=
  { identifier := 0x123#12, owner := .a, kind := .state, answer := .ownerAnswers, maxLength := 8#4, freshnessLimit := 4095#12,
    requestDeadline := 255#8 }

/-- The same slot, answered by the exchange. -/
def autoConfig : SlotConfig := { config with answer := .autoAnswer }

/-- A LIVE slot whose next sequence number is 1. -/
def live : Slot :=
  { Slot.cleared with
    config := config, state := .live,
    value := { length := 1#4, data := Table.fill 8 7#16, sequence := 65535#16, stamp := 5#32, echo := false } }

/-- The part after reset with slot record 95, the last. -/
def at95 (r : Slot) : State := State.reset.modSlot 95 fun _ => r

/-- The part with slot 95 LIVE. -/
def base : State := at95 live

/-- A value for slot 95. -/
def value (src : Source) (order : Nat) : Offer :=
  { source := src, slot := 95, length := 1#4, data := Table.fill 8 3#16, stamp := 9#32, snapshot := true, passed := false,
    order := order }

/-- The part with slot 95 RETIRING. -/
def leaving : State := at95 { live with state := .retiring }

/-- Port `p` holds the token. -/
def tok (p : Port) (s : State) : State := { s with token := some p }

/-- Port `p` holds slot 95. -/
def held (p : Port) (s : State) : State :=
  s.setHold p (some { slot := 95, expiry := 0#32, viewState := .seen, identifier := 0x123#12 })

/-- Slot 95 with a pending value. -/
def parked (s : State) : State := s.modSlot 95 fun r => { r with parked := some (value (.port .a) 4) }

/-- Slot 95 with a pending value that is ripe. -/
def ripened : State := parked { base with ripe := [95] }

/-- A landing on slot 95 that is in flight, its parts done or not. -/
def landing (done : Bool) : Landing :=
  { offer := value (.port .a) 4, served := if done then some PortSet.empty else none, notified := done, timed := done }

/-- The landing in flight. -/
def flying (done : Bool) (s : State) : State := { s with flight := some (landing done) }

/-- The exchange in state `x`. -/
def inState (x : Exchange) (s : State) : State := { s with exchange := x }

/-- Port `p` with its argument words. -/
def args (p : Port) (x y z : Word) (s : State) : State := s.modPort p fun u => { u with arg0 := x, arg1 := y, arg2 := z }

/-- Port `p` with its compose length. -/
def composed (p : Port) (n : Word) (s : State) : State := s.modPort p fun u => { u with composeLength := n }

/-- Port `p` with a BUSY command. -/
def busy (p : Port) (c : Command) (ph : Phase) (s : State) : State :=
  s.modPort p fun u => { u with unit := { u.unit with busy := some ⟨c, 95#8, ph⟩ } }

/-- Port `p` in a health state with a score. -/
def healthy (p : Port) (x : HealthState) (n : Nat) (s : State) : State := s.modHealth p fun h => { h with state := x, score := n }

/-- A watch on every kind of act, armed. -/
def watching (a : WatchAction) (n : Word) (s : State) : State :=
  { s with watch := { armed := true, slot := none, source := none, onLanding := true, onView := true, onRequest := true,
                      onConfig := true, action := a, captures := [], matchCount := n } }

theorem watching_catches (s : State) (a : WatchAction) (n : Word) (h : s.watch = (watching a n State.reset).watch)
    (kind : ActKind) (k : SlotIx) (src : Source) : s.catches kind k src := by
  unfold State.catches
  rw [h]
  exact ⟨rfl, by cases kind <;> rfl, .inl rfl, .inl rfl⟩

/-- The line PxRST_n of port `p` is low. -/
def lineLow (p : Port) (s : State) : State := { s with lineLow := s.lineLow.insert p }

/-- Port `p` has its detaching mark set. -/
def marked (p : Port) (s : State) : State := s.modHealth p fun h => { h with mark := true }

/-- Port `p` subscribes to every identifier by its filter 7. -/
def listening (p : Port) (s : State) : State :=
  s.modNotes p fun m => { m with filters := m.filters.set 7 { identifier := 0#12, mask := 0#12, enabled := true } }

/-- A note about slot 95. -/
def note (r : Reason) : Note :=
  { reason := r, slot := 95, identifier := 0x123#12, sequence := 1#16, reply := false, coalesced := false, isSealed := false,
    stamp := 0#16 }

/-- Port `p` with a queue of notes. -/
def queued (p : Port) (q : List Note) (s : State) : State := s.modNotes p fun m => { m with queue := q }

/-! ### Well-formed terms -/

theorem test_undefined_command_with_a_defined_code_is_ill_formed : (Instr.undefinedCommand .a 0x01#8 0#8).wellFormed = false := by
  decide

theorem test_undefined_command_with_code_zero_is_well_formed : (Instr.undefinedCommand .a 0x00#8 0#8).wellFormed = true := by
  decide

theorem test_register_write_at_a_read_offset_is_ill_formed : (Instr.registerWrite .a 0x20#6 0#16).wellFormed = false := by decide

theorem test_register_write_at_command_is_ill_formed : (Instr.registerWrite .a 0x00#6 0#16).wellFormed = false := by decide

theorem test_register_write_at_attention_enable_is_ill_formed : (Instr.registerWrite .a 0x25#6 0#16).wellFormed = false := by decide

theorem test_register_write_at_the_last_filter_is_well_formed : (Instr.registerWrite .a 0x37#6 0#16).wellFormed = true := by decide

/-! ### Words of COMMAND (R176), and the table -/

theorem test_word_publish : decodeCommandWord .a 0x0105#16 = .publish .a 5#8 := by decide
theorem test_word_request : decodeCommandWord .b 0x045F#16 = .request .b 95#8 := by decide
theorem test_word_claim_token : decodeCommandWord .c 0x1000#16 = .claimToken .c 0#8 := by decide
theorem test_word_retire_slot : decodeCommandWord .a 0x2103#16 = .retireSlot .a 3#8 := by decide
theorem test_word_restart : decodeCommandWord .a 0x2600#16 = .restart .a 0#8 := by decide
theorem test_word_cancel_head : decodeCommandWord .d 0x3400#16 = .cancelHead .d 0#8 := by decide
theorem test_word_read_capture : decodeCommandWord .a 0x3A00#16 = .readCapture .a 0#8 := by decide
theorem test_word_rejoin : decodeCommandWord .a 0x4000#16 = .rejoin .a 0#8 := by decide
theorem test_word_reset_port : decodeCommandWord .a 0x7F00#16 = .resetPort .a 0#8 := by decide
theorem test_word_undefined : decodeCommandWord .a 0x0501#16 = .undefinedCommand .a 5#8 1#8 := by decide
theorem test_table_words_spell_nothing : decodeTableWord 16 0x0105 = none := by decide

/-! ### One step of each command: RESULT words are those of R175 and R177 -/

theorem test_publish_by_another_port_is_not_owner : (after (.publish .b 95#8) base).windowRead .b 0x04#6 = 0x4005#16 := by decide
theorem test_publish_fills_the_queue : (after (.publish .a 95#8) (composed .a 1#16 base)).queue.length = 1 := by decide
theorem test_view_behind_a_landing_is_busy : (after (.view .b 95#8) (flying false base)).windowRead .b 0x04#6 = 0x8000#16 := by decide
theorem test_view_shows_the_slot_number : (after (.view .b 95#8) base).windowRead .b 0x1F#6 = 95#16 := by decide
theorem test_release_of_nothing_is_not_held : (after (.release .a 0#8) base).windowRead .a 0x04#6 = 0x4009#16 := by decide
theorem test_release_lands_the_pending_value :
    ((after (.release .b 0#8) (parked (held .b base))).slot 95).value.sequence = 1#16 := by decide
theorem test_request_of_an_own_slot : (after (.request .a 95#8) base).windowRead .a 0x04#6 = 0x400A#16 := by decide
theorem test_request_sends_a_note : (after (.request .b 95#8) base).windowRead .a 0x20#6 = 0x305F#16 := by decide
theorem test_claim_of_a_held_token : (after (.claimToken .b 0#8) (tok .a base)).windowRead .b 0x04#6 = 0x4011#16 := by decide
theorem test_yield_frees_the_token : (after (.yieldToken .a 0#8) (tok .a base)).token = none := by decide
theorem test_configure_reads_its_arguments :
    ((after (.configureSlot .a 94#8) (args .a 0x0FFF#16 4095#16 0xFF8F#16 (tok .a base))).slot 94).config =
      { identifier := 0xFFF#12, owner := .d, kind := .event, answer := .autoAnswer, maxLength := 8#4, freshnessLimit := 4095#12,
        requestDeadline := 255#8 } := by decide
theorem test_configure_with_a_used_identifier :
    (after (.configureSlot .a 94#8) (args .a 0x0123#16 0#16 0x0010#16 (tok .a base))).windowRead .a 0x04#6 = 0x4013#16 := by decide
theorem test_retire_of_a_held_slot : ((after (.retireSlot .b 95#8) (tok .b (held .a base))).slot 95).state = .retiring := by decide
theorem test_retire_of_an_idle_slot : ((after (.retireSlot .b 95#8) (tok .b base)).slot 95) = Slot.cleared := by decide
theorem test_hold_timeout_of_256 :
    (after (.setHoldTimeout .a 0#8) (args .a 256#16 0#16 0#16 (tok .a base))).windowRead .a 0x04#6 = 0x4002#16 := by decide
theorem test_set_time : (after (.setTime .a 0#8) (args .a 2#16 1#16 0#16 (tok .a base))).time = 0x00010002#32 := by decide
theorem test_rejoin_policy :
    ((after (.setRejoinPolicy .a 0#8) (args .a 3#16 1#16 0#16 (tok .a base))).healthOf .d).autoRejoin = true := by decide
theorem test_expel_sets_the_mark : ((after (.expel .a 0#8) (args .a 3#16 0#16 0#16 (tok .a base))).healthOf .d).mark = true := by decide
theorem test_expel_of_itself : (after (.expel .a 0#8) (tok .a base)).windowRead .a 0x04#6 = 0x4002#16 := by decide
theorem test_restart_sets_the_mark : (after (.restart .a 0#8) (tok .a base)).restartMark = true := by decide
theorem test_freeze_without_a_landing : (after (.freeze .a 0#8) (tok .a base)).exchange = .frozen := by decide
theorem test_freeze_with_a_landing : (after (.freeze .a 0#8) (tok .a (flying false base))).exchange = .freezing := by decide
theorem test_resume_out_of_running : (after (.resume .a 0#8) (tok .a base)).windowRead .a 0x04#6 = 0x4014#16 := by decide
theorem test_step_of_nothing : (after (.step .a 0#8) (tok .a (inState .frozen base))).windowRead .a 0x04#6 = 0x4015#16 := by decide
theorem test_inspect_copies_the_slot :
    (after (.inspect .a 0#8) (tok .a (inState .frozen { base with queue := [value (.port .c) 4] }))).windowRead .a 0x39#6 = 0x015F#16 := by
  decide
theorem test_cancel_head_tells_the_publisher :
    (after (.cancelHead .a 0#8) (tok .a (inState .frozen { base with queue := [value (.port .c) 4] }))).windowRead .c 0x20#6 =
      0x605F#16 := by decide
theorem test_arm_watch_on_any_slot :
    (after (.armWatch .a 0#8) (args .a 0x00FF#16 5#16 0x002F#16 (tok .a base))).watch = (watching .freezeBefore 0#16 base).watch := by
  decide
theorem test_arm_watch_on_slot_96 :
    (after (.armWatch .a 0#8) (args .a 96#16 5#16 0x002F#16 (tok .a base))).windowRead .a 0x04#6 = 0x4002#16 := by decide
theorem test_disarm_watch : (after (.disarmWatch .a 0#8) (tok .a (watching .record 7#16 base))).watch.armed = false := by decide
theorem test_read_capture_of_nothing :
    (after (.readCapture .a 0#8) (args .a 7#16 0#16 0#16 (tok .a base))).windowRead .a 0x38#6 = 0x001E#16 := by decide
theorem test_rejoin_of_an_active_port : (after (.rejoin .a 0#8) base).windowRead .a 0x04#6 = 0x4016#16 := by decide
theorem test_reset_port_clears_the_arguments :
    (after (.resetPort .a 0#8) (args .a 1#16 2#16 3#16 base)).windowRead .a 0x03#6 = 0#16 := by decide
theorem test_undefined_command_is_penalised : (after (.undefinedCommand .a 0#8 0#8) base).windowRead .a 0x06#6 = 4#16 := by decide
theorem test_undefined_command_to_a_busy_unit :
    (after (.undefinedCommand .a 0#8 0#8) (busy .a .view (.behindLanding 95) base)).windowRead .a 0x04#6 = 0xA000#16 := by decide

/-! ### One step of each other event -/

theorem test_register_write_of_a_filter_mask : (after (.registerWrite .b 0x37#6 0xFFFF#16) base).windowRead .b 0x37#6 = 0x0FFF#16 := by
  decide
theorem test_attention_follows_its_enable :
    (after (.attentionEnableWrite .b 0xFFFD#16) (queued .b [note .lost] base)).attention .b = true := by decide
theorem test_result_read_clears_the_flags :
    (after (.resultRead .a) (after (.release .a 0#8) base)).windowRead .a 0x04#6 = 0x0009#16 := by decide
theorem test_time_low_read_latches_the_high_half :
    (after (.timeLowRead .a) { base with time := 0x00020001#32 }).windowRead .a 0x08#6 = 2#16 := by decide
theorem test_note_take_reads_the_note : ((after (.noteTake .b) (queued .b [note .newValue] base)).port .b).lastRead = some 0x105F#16 := by
  decide
theorem test_note_take_releases_the_hold : (after (.noteTake .b) (held .b base)).hold .b = none := by decide
theorem test_device_reset : (after .deviceReset base).slot 95 = Slot.cleared := by decide
theorem test_device_reset_release : (after .deviceResetRelease { base with inReset := true }).inReset = false := by decide
theorem test_port_reset_clears_the_filters :
    (after (.portReset .b) (listening .b base)).windowRead .b 0x36#6 = 0#16 := by decide
theorem test_a_low_line_stops_the_port :
    (after (.registerWrite .b 0x01#6 5#16) (after (.portReset .b) base)).windowRead .b 0x01#6 = 0#16 := by decide
theorem test_a_line_that_is_high_again_frees_the_port :
    (after (.registerWrite .b 0x01#6 5#16) (after (.portReset .b) (after (.portReset .b) base))).windowRead .b 0x01#6 =
      5#16 := by decide
theorem test_a_low_line_outlives_a_device_reset :
    (after .deviceResetRelease (after .deviceReset (after (.portReset .b) base))).lineLow.has .b = true := by decide
theorem test_reset_port_done : (after (.resetPortDone .a) (busy .a .resetPort .taken base)).windowRead .a 0x04#6 = 0x4000#16 := by decide
theorem test_sequence_65535_is_followed_by_1 :
    ((after .takeNextValue { base with queue := [value (.port .a) 4] }).slot 95).value.sequence = 1#16 := by decide
theorem test_a_held_value_is_parked :
    ((after .takeNextValue (held .b { base with queue := [value (.port .a) 4] })).slot 95).parked = some (value (.port .a) 4) := by
  decide
theorem test_service_empties_the_requesters :
    ((after .landingService (flying false (base.modSlot 95 fun r => { r with requesters := PortSet.empty.insert .c }))).slot
      95).requesters = PortSet.empty := by decide
theorem test_notification_reaches_a_subscriber :
    (after .landingNotification
      { listening .d base with flight := some { landing true with notified := false } }).windowRead .d 0x20#6 = 0x105F#16 := by decide
theorem test_time_part_arms_the_freshness_timer :
    ((after .landingTimePart (flying false base)).slot 95).freshness = some 4095000#32 := by decide
theorem test_landing_end : (after .landingEnd (inState .freezing (flying true base))).exchange = .frozen := by decide
theorem test_landing_end_completes_a_retirement :
    ((after .landingEnd (flying true leaving)).slot 95).state = .unused := by decide
theorem test_view_grant : (after (.viewGrant .b) (busy .b .view (.behindLanding 95) base)).holding .b 95 = true := by decide
theorem test_hold_expiry_is_penalised : ((after (.holdExpiry .b) (held .b base)).healthOf .b).score = 8 := by decide
theorem test_deadline_expiry_is_penalised :
    ((after (.deadlineExpiry 95) (base.modSlot 95 fun r => { r with deadline := some 0#32 })).healthOf .a).score = 8 := by decide
theorem test_freshness_expiry : ((after (.freshnessExpiry 95) (base.modSlot 95 fun r => { r with freshness := some 0#32 })).slot 95).stale =
    true := by decide
theorem test_the_sixteenth_quiet_interval :
    ((after (.quietIntervalEnd .b)
      (base.modHealth .b fun h => { h with state := .rejoining, rejoinCount := 15, quiet := some 0#32 })).healthOf .b).state =
      .active := by decide
theorem test_detachment_frees_the_token :
    (after (.detachment .b .token) { tok .b base with detachQueue := [[.b]] }).token = none := by decide
theorem test_restart_begin_reopens_a_live_slot :
    ((after .restartBegin { base with restartMark := true }).slot 95).state = .opened := by decide +kernel
theorem test_restart_end : (after .restartEnd (inState .restarting { base with restartMark := true })).exchange = .running := by decide
theorem test_the_time_base_waits_for_an_expiry :
    (after .timeBaseAdvance (held .b { base with prescaler := 15#4 })).time = 0#32 := by decide
theorem test_the_prescaler_wraps : (after .timeBaseAdvance { base with prescaler := 15#4 }).time = 1#32 := by decide

/-! ### Witnesses: the machine and its laws -/

theorem witness_StepRunsTheFrontOfTheQueue : State.reset.pending = [] := by decide

theorem witness_CommandWordsRoundTrip :
    ((Instr.retireSlot .d 95#8).wellFormed = true ∧ encodeCommandWord (.retireSlot .d 95#8) = some (.d, 0x215F#16)) ∧
      (Instr.undefinedCommand .a 0xFF#8 255#8).wellFormed = true ∧
      encodeCommandWord (.undefinedCommand .a 0xFF#8 255#8) = some (.a, 0xFFFF#16) := by decide

/-- A refused PUBLISH at the score 252 waits. -/
def fined252 : State := { healthy .b .degraded 252 (base.modHealth .b fun h => { h with warn := true }) with
  pending := [.publish .b 95#8] }

theorem witness_StepKeepsScoreLaw :
    fined252.ScoreLaw ∧ step fined252 = .next (after (.publish .b 95#8) { fined252 with pending := [] }) := by
  refine ⟨?_, rfl⟩
  intro p
  cases p <;> decide

/-- A full Publication Queue and a full Notification Queue, with a landing that waits to be told. -/
def fullQueues : State :=
  { queued .d (List.replicate 15 (note .request) ++ [note .lost]) (listening .d base) with
    queue := List.replicate 4 (value (.port .a) 1) ++ List.replicate 4 (value (.port .b) 2)
    flight := some { landing true with notified := false }
    pending := [.landingNotification] }

theorem witness_StepKeepsQueueLaws :
    step fullQueues = .next (after .landingNotification { fullQueues with pending := [] }) ∧ fullQueues.PublicationLaw ∧
      fullQueues.NotesLaw := by
  refine ⟨rfl, ⟨by decide, fun p => by cases p <;> decide⟩, fun p => ?_⟩
  cases p
  · exact ⟨[], by decide, by decide, .inl rfl⟩
  · exact ⟨[], by decide, by decide, .inl rfl⟩
  · exact ⟨[], by decide, by decide, .inl rfl⟩
  · exact ⟨List.replicate 15 (note .request), by decide, by decide, .inr ⟨note .lost, by decide, rfl⟩⟩

theorem slot_at95 (r : Slot) (k : SlotIx) : (at95 r).slot k = if k = 95 then r else Slot.cleared := by
  simp [at95, State.slot, State.modSlot, Table.get_set, State.reset]

/-- RETIRE_SLOT of the one slot waits. -/
def retiring : State := { tok .a base with pending := [.retireSlot .a 95#8] }

theorem slot_retiring (k : SlotIx) : retiring.slot k = if k = 95 then live else Slot.cleared := slot_at95 live k

theorem witness_StepKeepsIdentifierLaw :
    retiring.IdentifierLaw ∧ step retiring = .next (after (.retireSlot .a 95#8) { retiring with pending := [] }) := by
  refine ⟨fun j k hj hk _ => ?_, rfl⟩
  have only : ∀ i, (retiring.slot i).state ≠ .unused → i = 95 := by
    intro i hi
    by_contra h
    rw [slot_retiring, if_neg h] at hi
    exact hi rfl
  rw [only j hj, only k hk]

theorem witness_StepKeepsRequesterLaw :
    retiring.RequesterLaw ∧ step retiring = .next (after (.retireSlot .a 95#8) { retiring with pending := [] }) := by
  refine ⟨fun k => ?_, rfl⟩
  rw [slot_retiring]
  split <;> decide

/-- Slot 95, held by B, with a freeze that waits. -/
def heldSlot : State := { tok .a (held .b base) with pending := [.freeze .a 0#8] }

theorem slot_heldSlot (k : SlotIx) : heldSlot.slot k = if k = 95 then live else Slot.cleared := slot_at95 live k

theorem heldSlot_HoldLaw : heldSlot.HoldLaw := by
  have none_parked : ∀ k, (heldSlot.slot k).parked = none := by
    intro k
    rw [slot_heldSlot]
    split <;> rfl
  have holds : ∀ p k, heldSlot.holding p k = true → k = 95 := by
    intro p k h
    cases p
    · cases h
    · exact (beq_iff_eq.mp h).symm
    · cases h
    · cases h
  refine ⟨⟨?_, by decide, ?_, ?_, rfl⟩, ⟨?_, ?_, ?_, ?_⟩, ?_, ?_, List.nodup_nil, ?_, List.nodup_nil, ?_, ?_⟩
  · exact fun h => absurd h (by decide)
  · exact fun h => absurd h (by decide)
  · exact fun h => absurd h (by decide)
  · exact fun o h => absurd h List.not_mem_nil
  · intro k o h
    rw [none_parked] at h
    cases h
  · intro p k h
    rw [holds p k h]
    decide
  · intro p k h
    cases p <;> cases h
  · intro l h
    cases h
  · exact fun o h => absurd h List.not_mem_nil
  · intro k
    rw [none_parked]
    exact ⟨fun h => absurd h List.not_mem_nil, fun h => absurd h.2 (by decide)⟩
  · exact fun h => absurd rfl h
  · exact fun h => absurd rfl h

theorem witness_StepKeepsHoldLaw :
    heldSlot.HoldLaw ∧ step heldSlot = .next (after (.freeze .a 0#8) { heldSlot with pending := [] }) :=
  ⟨heldSlot_HoldLaw, rfl⟩

/-- Port B DETACHED, with a REJOIN that waits. -/
def outsideB : State :=
  { healthy .b .detached 0 (State.reset.modNotes .b fun m => { m with delivery := .closed }) with
    lostOwners := PortSet.empty.insert .b, pending := [.rejoin .b 0#8] }

theorem outsideB_DetachedLaw : outsideB.DetachedLaw := by
  have cleared : ∀ k, outsideB.slot k = Slot.cleared := fun k => by simp [outsideB, healthy, State.slot, State.modHealth, State.modNotes, State.reset]
  have inside : ∀ p st, p ≠ .b → ¬ outsideB.clearOf p st := by
    rintro p st h (h' | ⟨n, h', -⟩)
    · cases p <;> first | exact h rfl | exact absurd h' (by decide)
    · cases h'
  have idle : ∀ p, (outsideB.port p).unit.busy = none := fun p => by cases p <;> decide
  refine ⟨⟨fun p => ?_, List.nodup_nil, fun p st h => (by cases h), fun p h => ?_⟩, fun p => ?_⟩
  · have m : (outsideB.healthOf p).mark = false := by cases p <;> decide
    rw [m]
    refine ⟨?_, fun h => absurd h (by decide)⟩
    rintro (⟨st, h⟩ | h)
    · cases h
    · exact absurd h List.not_mem_nil
  · have m : (outsideB.healthOf p).mark = false := by cases p <;> decide
    rw [m] at h
    cases h
  · by_cases h : p = .b
    · subst h
      refine ⟨fun _ => by decide, fun _ => by decide, fun _ => by decide, fun _ => ⟨fun k => ?_, by decide⟩,
        fun _ => ⟨by decide, by decide, fun k => ?_⟩, fun b hb => ?_⟩
      · rw [cleared]
        decide
      · rw [cleared]
        decide
      · rw [idle] at hb
        cases hb
    · refine ⟨fun c => absurd c (inside p _ h), fun c => absurd c (inside p _ h), fun c => absurd c (inside p _ h),
        fun c => absurd c (inside p _ h), fun c => absurd c (inside p _ h), fun b hb => ?_⟩
      rw [idle] at hb
      cases hb

theorem witness_StepKeepsDetachedLaw :
    outsideB.DetachedLaw ∧ step outsideB = .next (after (.rejoin .b 0#8) { outsideB with pending := [] }) :=
  ⟨outsideB_DetachedLaw, rfl⟩

theorem witness_ValueStaysUnderItsHolder :
    heldSlot.HoldLaw ∧ exec (.freeze .a 0#8) heldSlot = .next (after (.freeze .a 0#8) heldSlot) ∧
      heldSlot.holding .b 95 = true ∧ (after (.freeze .a 0#8) heldSlot).holding .b 95 = true :=
  ⟨heldSlot_HoldLaw, rfl, by decide, by decide⟩

/-! ### Witnesses: publication -/

/-- A with 1 word composed for its slot, 3 of its values and 4 of others queued. -/
def publishing : State :=
  { composed .a 1#16 base with queue := List.replicate 3 (value (.port .a) 1) ++ List.replicate 4 (value (.port .b) 2) }

theorem witness_PublishQueuesTheValue :
    publishing.ready .a ∧ (95 : SlotIx).val = (95#8).toNat ∧ (publishing.slot 95).state = .live ∧
      (publishing.slot 95).config.owner = .a ∧
      (publishing.port .a).composeLength.toNat ≤ (publishing.slot 95).config.maxLength.toNat ∧
      (publishing.port .a).composeLength ≠ 0#16 ∧ publishing.entriesOf .a = 3 ∧ publishing.queue.length = 7 := by decide

theorem witness_PublishRefusals :
    (base.ready .a ∧ (healthy .a .degraded 251 base).ready .a ∧ (healthy .a .degraded 251 base).bears .a 4) ∧
      95 < (96#8).toNat ∧ (94 : SlotIx).val = (94#8).toNat ∧ (base.slot 94).state = .unused ∧
      ((at95 { live with state := .retiring }).ready .a ∧ ((at95 { live with state := .retiring }).slot 95).state = .retiring) ∧
      (base.ready .b ∧ base.bears .b 4 ∧ (base.slot 95).state = .live ∧ (base.slot 95).config.owner ≠ .b) ∧
      ((composed .a 9#16 base).ready .a ∧ (base.slot 95).config.maxLength.toNat + 1 = ((composed .a 9#16 base).port .a).composeLength.toNat) ∧
      ((base.port .a).composeLength = 0#16 ∧ (base.slot 95).config.kind = .state) := by decide

theorem witness_PublishRefusals_by_the_queue :
    (let s := { composed .a 8#16 base with queue := List.replicate 4 (value (.port .a) 1) }
     s.ready .a ∧ s.bears .a 4 ∧ s.entriesOf .a = 4 ∧ (s.port .a).composeLength.toNat = (s.slot 95).config.maxLength.toNat) ∧
      (let s := { composed .a 8#16 base with queue := List.replicate 3 (value (.port .a) 1) ++ List.replicate 5 (value (.port .b) 1) }
       s.ready .a ∧ s.bears .a 4 ∧ s.entriesOf .a = 3 ∧ s.queue.length = 8) ∧
      (publishing.bears .a 4 ∧ publishing.entriesOf .a = 3 ∧ publishing.queue.length = 7) := by decide

theorem witness_NextValueLands :
    (let s := { base with due := [value (.port .a) 4] }
     s.settled ∧ s.exchange = .running ∧ s.flight = none ∧ s.restartMark = false ∧ s.due = [value (.port .a) 4] ∧
      s.watch.hits .landing 95 (.port .a) = false) ∧
      (let s := { base with queue := [value (.port .a) 4] }
       s.settled ∧ s.due = [] ∧ s.queue = [value (.port .a) 4] ∧ s.holding .a 95 = false ∧ s.holding .b 95 = false ∧
        s.holding .c 95 = false ∧ s.holding .d 95 = false) ∧
      ({ value .exchange 4 with passed := true } : Offer).passed = true ∧ (base.settled ∧ base.due = [] ∧ base.queue = []) ∧
      (flying true base).flight.isSome = true ∧ { base with restartMark := true }.restartMark = true ∧
      (inState .frozen base).settled := by decide

theorem witness_HeldValueIsParked :
    let s := parked (held .b { base with queue := [value (.port .a) 5] })
    s.settled ∧ s.exchange = .running ∧ s.flight = none ∧ s.restartMark = false ∧ s.due = [] ∧ s.queue = [value (.port .a) 5] ∧
      s.holding .b 95 = true ∧ (s.slot 95).parked.isSome = true := by decide

/-- STEPPING with a task. -/
def stepping (t : Task) (s : State) : State := { s with exchange := .stepping, task := some t }

theorem witness_StepOrDrainTakesItsItem :
    (let s := stepping (.step (.ripe 95)) ripened
     s.settled ∧ s.exchange = .stepping ∧ s.flight = none ∧ s.restartMark = false ∧ s.due = [] ∧ (95 : SlotIx) ∈ s.ripe ∧
      (s.slot 95).parked = some (value (.port .a) 4) ∧ (value (.port .a) 4).slot = 95 ∧
      s.watch.hits .landing 95 (.port .a) = false) ∧
      (let s := stepping (.drain 95) ripened
       s.settled ∧ s.task = some (.drain 95) ∧ (95 : SlotIx) ∈ s.ripe) ∧
      (let s := stepping (.step (.head 4)) { base with queue := [value (.port .a) 4] }
       s.settled ∧ s.task = some (.step (.head (value (.port .a) 4).order)) ∧ s.queue = [value (.port .a) 4]) ∧
      (let s := stepping (.step (.head 4)) (held .b { base with queue := [value (.port .a) 4] })
       s.settled ∧ s.holding .b 95 = true ∧ (s.slot 95).parked = none) ∧
      (let s := stepping (.step (.ripe 95)) base
       s.settled ∧ s.task = some (.step (.ripe 95)) ∧ (95 : SlotIx) ∉ s.ripe) := by decide

theorem witness_StepOrDrainTakesItsItem_or_goes_on :
    (let s := stepping (.step (.head 5)) (parked (held .b { base with queue := [value (.port .a) 5] }))
     s.settled ∧ s.task = some (.step (.head (value (.port .a) 5).order)) ∧ s.queue = [value (.port .a) 5] ∧
      s.holding .b 95 = true ∧ (s.slot 95).parked.isSome = true) ∧
      (let s := stepping (.drain 94) ripened
       s.settled ∧ s.task = some (.drain 94) ∧ (94 : SlotIx) ∉ s.ripe ∧ s.freezeMark = false ∧ s.ripe = 95 :: [] ∧
        (s.slot 95).parked = some (value (.port .a) 4)) ∧
      (let s := { stepping (.drain 94) ripened with freezeMark := true }
       s.settled ∧ (94 : SlotIx) ∉ s.ripe ∧ s.freezeMark = true) ∧
      (let s := stepping (.step (.head 3)) { base with queue := [value (.port .a) 4] }
       s.settled ∧ s.queue = [value (.port .a) 4] ∧ (value (.port .a) 4).order ≠ 3) ∧
      (let s := stepping (.drain 95) base
       s.settled ∧ s.task = some (.drain 95) ∧ s.ripe = [] ∧ s.freezeMark = false) := by decide

/-! ### Witnesses: landings -/

theorem witness_LandingServiceAndTimePart :
    ((flying false base).settled ∧ (flying false base).flight = some (landing false) ∧ (landing false).served = none ∧
      (landing false).timed = false) ∧
      (flying true base).settled ∧ (flying true base).flight = some (landing true) ∧ (landing true).served.isSome = true ∧
      (landing true).timed = true := by decide

/-- A landing to be told to D, a subscriber with 14 notes, and to C, a served requester with none. -/
def telling : State :=
  { queued .d (List.replicate 14 (note .request)) (listening .d base) with
    flight := some { landing true with served := some (PortSet.empty.insert .c), notified := false } }

theorem witness_LandingTellsItsPorts :
    telling.settled ∧ telling.flight = some { landing true with served := some (PortSet.empty.insert .c), notified := false } ∧
      telling.subscribes 95 .d = true ∧
      ∀ q, (telling.subscribes 95 q || (PortSet.empty.insert Port.c).has q) = true →
        telling.roomFor q = true ∧ ∀ m ∈ (telling.noteUnit q).queue, m.reason = .newValue → m.slot ≠ 95 := by
  refine ⟨by decide, by decide, by decide, fun q => ?_⟩
  cases q <;> decide

theorem witness_LandingEnds :
    ((flying false base).settled ∧ (flying false base).flight = some (landing false) ∧ (landing false).served = none) ∧
      ((flying true base).settled ∧ (landing true).served = some PortSet.empty ∧ (landing true).notified = true ∧
        (landing true).timed = true ∧ ((flying true base).slot (landing true).offer.slot).state ≠ .retiring ∧
        (flying true base).exchange = .running) ∧
      (let s := inState .freezing (flying true base)
       s.settled ∧ s.restartMark = false ∧ s.due = [] ∧ s.exchange = .freezing) ∧
      (let s := stepping (.step (.ripe 95)) (flying true base)
       s.settled ∧ s.restartMark = false ∧ s.due = [] ∧ s.task = some (.step (.ripe 95))) ∧
      (let s := { stepping (.drain 95) (flying true base) with freezeMark := true }
       s.settled ∧ s.restartMark = false ∧ s.due = [] ∧ s.freezeMark = true) ∧
      (let s := { stepping (.drain 95) (flying true base) with ripe := [94] }
       s.settled ∧ s.restartMark = false ∧ s.due = [] ∧ s.freezeMark = false ∧ s.ripe = [94]) ∧
      (let s := stepping (.drain 95) (flying true base)
       s.settled ∧ s.restartMark = false ∧ s.due = [] ∧ s.freezeMark = false ∧ s.ripe = []) := by decide

theorem witness_LandingEnds_on_a_retiring_slot :
    (let s := held .b (flying true leaving)
     s.settled ∧ s.flight = some (landing true) ∧ (s.slot 95).state = .retiring ∧ s.exchange = .running ∧ s.holding .b 95 = true) ∧
      (∀ q, (flying true leaving).holding q 95 = false ∧ (flying true leaving).phaseOf q ≠ some (.behindLanding 95)) ∧
      (let s := inState .freezing (flying true leaving)
       s.settled ∧ s.restartMark = false ∧ s.due = [] ∧ s.exchange = .freezing) ∧
      (queued .d (List.replicate 14 (note .stale)) (listening .d (flying true leaving))).subscribes 95 .d = true ∧
      (queued .d (List.replicate 14 (note .stale)) (listening .d (flying true leaving))).roomToRetire 95 := by
  refine ⟨by decide, fun q => ?_, by decide, by decide, fun q => ?_⟩ <;> cases q <;> decide

/-- A landing on the RETIRING slot 95 that is ready to end, in STEPPING with a task. -/
def leavingBy (t : Task) : State := stepping t (flying true leaving)

theorem witness_LandingEnds_on_a_retiring_slot_in_stepping :
    (∀ t ∈ [Task.step (.head 4), .drain 94], (leavingBy t).settled ∧ (leavingBy t).flight = some (landing true) ∧
      ((leavingBy t).slot 95).state = .retiring ∧ (leavingBy t).restartMark = false ∧ (leavingBy t).due = [] ∧
      (leavingBy t).exchange = .stepping ∧ (leavingBy t).task = some t ∧ (leavingBy t).freezeMark = false ∧
      (leavingBy t).ripe = []) ∧
      { leavingBy (.drain 94) with freezeMark := true }.freezeMark = true ∧ { leavingBy (.drain 94) with ripe := [93] }.ripe = [93] ∧
      (∀ q, (leavingBy (.drain 94)).holding q 95 = false ∧ (leavingBy (.drain 94)).phaseOf q ≠ some (.behindLanding 95)) ∧
      (leavingBy (.drain 94)).roomToRetire 95 := by
  refine ⟨by decide, by decide, by decide, fun q => ?_, fun q => ?_⟩ <;> cases q <;> decide

theorem witness_LandingEnds_with_a_view_that_waits :
    let s := busy .b .view (.behindLanding 95) (flying true leaving)
    (s.settled ∧ s.flight = some (landing true) ∧ (s.slot 95).state = .retiring ∧ s.phaseOf .b = some (.behindLanding 95) ∧
      s.exchange = .running ∧ s.endsQuietly .b = true ∧ s.watch.hits .view 95 (.port .b) = false) ∧
      (∀ q, s.holding q 95 = false ∧ (q ≠ .b → s.phaseOf q ≠ some (.behindLanding 95))) ∧ s.roomToRetire 95 := by
  refine ⟨by decide, fun q => ?_, fun q => ?_⟩ <;> cases q <;> decide

/-- FREEZING behind a landing on slot 95, with a due value of slot 94. -/
def freezing : State :=
  { inState .freezing (flying true (base.modSlot 94 fun _ => live)) with due := [{ value (.port .a) 3 with slot := 94 }] }

theorem slot_freezing (k : SlotIx) : freezing.slot k = if k = 94 ∨ k = 95 then live else Slot.cleared := by
  have e : freezing.slot k = (base.modSlot 94 fun _ => live).slot k := rfl
  rw [e]
  simp only [State.slot, State.modSlot, Table.get_set, base, at95, State.reset, Table.get_fill]
  by_cases h : k = 94
  · simp [h]
  · by_cases h' : k = 95 <;> simp [h, h']

theorem freezing_HoldLaw : freezing.HoldLaw := by
  have none_parked : ∀ k, (freezing.slot k).parked = none := by
    intro k
    rw [slot_freezing]
    split <;> rfl
  have holds : ∀ p k, freezing.holding p k = false := by
    intro p k
    cases p <;> rfl
  have empty : ∀ k, (freezing.holdSet k).isEmpty = true := by
    intro k
    simp [PortSet.isEmpty_iff, State.holdSet, holds]
  refine ⟨⟨?_, by decide, ?_, ?_, rfl⟩, ⟨by decide, ?_, ?_, ?_⟩, ?_, ?_, by decide, ?_, List.nodup_nil, ?_, ?_⟩
  · exact fun _ => .inr (.inl rfl)
  · exact fun h => absurd h (by decide)
  · exact fun h => absurd h (by decide)
  · intro k o h
    rw [none_parked] at h
    cases h
  · intro p k h
    rw [holds] at h
    cases h
  · intro p k h
    cases p <;> cases h
  · exact fun l _ => empty _
  · exact fun o _ => ⟨empty _, none_parked _⟩
  · intro k
    rw [none_parked]
    exact ⟨fun h => absurd h List.not_mem_nil, fun h => absurd h.2 (by decide)⟩
  · exact fun h => absurd rfl h
  · exact fun _ => .inr rfl

theorem witness_DueValuesBecomeRipe :
    freezing.HoldLaw ∧ freezing.inReset = false ∧ freezing.flight = some (landing true) ∧ (landing true).served.isSome = true ∧
      (landing true).notified = true ∧ (landing true).timed = true ∧
      (freezing.slot (landing true).offer.slot).state ≠ .retiring ∧ freezing.exchange = .freezing ∧
      freezing.restartMark = false ∧ freezing.due ≠ [] :=
  ⟨freezing_HoldLaw, by decide⟩

/-! ### Witnesses: views and holds -/

theorem witness_ViewIsGranted :
    base.ready .b ∧ (95 : SlotIx).val = (95#8).toNat ∧ (base.slot 95).state = .live ∧ base.holding .b 95 = false ∧
      base.landingMark 95 = false ∧ base.endsQuietly .b = true ∧ base.watch.hits .view 95 (.port .b) = false := by decide

theorem witness_ViewRefreshesWaitsOrIsRefused :
    (let s := healthy .b .degraded 251 base
     s.ready .b ∧ s.bears .b 4 ∧ 95 < (96#8).toNat ∧ (94 : SlotIx).val = (94#8).toNat ∧ (s.slot 94).state = .unused) ∧
      (let s := at95 { live with state := .retiring }
       s.ready .b ∧ s.bears .b 4 ∧ (s.slot 95).state = .retiring) ∧
      (let s := held .b base
       s.ready .b ∧ s.bears .b 4 ∧ (s.slot 95).state = .live ∧ s.holding .b 95 = true ∧
        s.watch.hits .view 95 (.port .b) = false) ∧
      (let s := flying false base
       s.ready .b ∧ s.bears .b 4 ∧ (s.slot 95).state = .live ∧ s.holding .b 95 = false ∧ s.landingMark 95 = true) := by decide

theorem witness_WaitingViewIsGranted :
    (let s := busy .b .view (.behindLanding 95) base
     s.settled ∧ s.phaseOf .b = some (.behindLanding 95) ∧ s.landingMark 95 = false ∧ s.exchange ≠ .restarting ∧
      s.holding .b 95 = false ∧ s.endsQuietly .b = true ∧ s.watch.hits .view 95 (.port .b) = false) ∧
      (let s := busy .b .view (.behindLanding 95) (flying false base)
       s.settled ∧ s.phaseOf .b = some (.behindLanding 95) ∧ s.landingMark 95 = true) ∧
      (let s := busy .b .view .slotGone base
       s.settled ∧ s.phaseOf .b = some .slotGone ∧ s.exchange ≠ .restarting ∧ s.inside .b = true) ∧
      base.settled ∧ base.phaseOf .b = none := by decide

theorem witness_ReleaseEndsTheHold :
    (base.ready .b ∧ base.hold .b = none) ∧
      (held .b base).ready .b ∧ (held .b base).hold .b = some { slot := 95, expiry := 0#32, viewState := .seen, identifier := 0x123#12 } ∧
      (held .b base).endsQuietly .b = true ∧ (parked (held .c (held .b base))).endsQuietly .b = true := by decide

theorem witness_ReleaseEndsTheHold_of_a_retiring_slot :
    (let s := held .b leaving
     s.ready .b ∧ s.hold .b = some { slot := 95, expiry := 0#32, viewState := .seen, identifier := 0x123#12 } ∧
      s.heldByOther .b 95 = false ∧ (s.slot 95).state = .retiring ∧ (s.slot 95).parked = none ∧ s.landingMark 95 = false) ∧
      (queued .d [note .stale] (listening .d (held .b leaving))).subscribes 95 .d = true ∧
      (queued .d [note .stale] (listening .d (held .b leaving))).roomToRetire 95 := by
  refine ⟨by decide, by decide, fun q => ?_⟩
  cases q <;> decide

theorem witness_LastReleaseSendsThePendingValue :
    let s := parked (held .b base)
    let h : Hold := { slot := 95, expiry := 0#32, viewState := .seen, identifier := 0x123#12 }
    (s.ready .b ∧ s.hold .b = some h ∧ s.heldByOther .b 95 = false ∧ (s.slot 95).parked = some (value (.port .a) 4) ∧
      (value (.port .a) 4).slot = 95 ∧ (s.slot 95).state ≠ .retiring) ∧
      (s.exchange = .running ∧ s.flight = none ∧ s.restartMark = false ∧ s.watch.hits .landing 95 (.port .a) = false) ∧
      ((flying false s).ready .b ∧ (flying false s).exchange = .running ∧ (flying false s).flight.isSome = true) ∧
      ((inState .freezing s).ready .b ∧ (inState .freezing s).exchange = .freezing) ∧
      (inState .frozen s).ready .b ∧ (inState .frozen s).exchange = .frozen ∧ (95 : SlotIx) ∉ (inState .frozen s).ripe := by decide

theorem witness_HoldExpires :
    let h : Hold := { slot := 95, expiry := 0#32, viewState := .seen, identifier := 0x123#12 }
    let s := queued .b (List.replicate 14 (note .request)) (healthy .b .degraded 247 (held .b base))
    (s.settled ∧ s.hold .b = some h ∧ s.exchange = .running ∧ s.time = h.expiry ∧ s.endsQuietly .b = true ∧ s.roomFor .b = true ∧
      s.inside .b = true ∧ (s.healthOf .b).mark = false ∧ s.bears .b 8) ∧
      ((inState .stepping s).settled ∧ (inState .stepping s).exchange = .stepping) ∧
      (h.expiry = { s with time := 0xFFFFFFFF#32 }.time + BitVec.ofNat 32 1 ∧
        h.expiry = { s with time := 0x80000001#32 }.time + BitVec.ofNat 32 (2 ^ 31 - 1)) := by decide

theorem witness_HoldExpires_on_a_retiring_slot :
    let s := queued .b (List.replicate 13 (note .request)) (listening .b (healthy .b .degraded 247 (held .b leaving)))
    (s.settled ∧ s.hold .b = some { slot := 95, expiry := 0#32, viewState := .seen, identifier := 0x123#12 } ∧
      s.exchange = .running ∧ s.time = 0#32 ∧ s.heldByOther .b 95 = false ∧ (s.slot 95).state = .retiring ∧
      (s.slot 95).parked = none ∧ s.landingMark 95 = false ∧ s.subscribes 95 .b = true ∧ s.roomFor .b = true ∧
      (s.noteUnit .b).queue.length < 14 ∧ s.inside .b = true ∧ (s.healthOf .b).mark = false ∧ s.bears .b 8) ∧
      s.roomToRetire 95 := by
  refine ⟨by decide, fun q => ?_⟩
  cases q <;> decide

/-! ### Witnesses: notes -/

theorem witness_NoteAppendOutcomes :
    ({ base.noteUnit .b with delivery := .closed }.delivery = .closed ∧ (base.noteUnit .b).delivery = .delivering) ∧
      (let m := (queued .b [note .request, note .stale] base).noteUnit .b
       m.delivery = .delivering ∧ m.queue = [note .request] ++ note .stale :: [] ∧
        (∀ x ∈ [note .request], ¬ (x.reason = .stale ∧ x.slot = 95 ∧ x.identifier = 0x123#12 ∧ x.isSealed = false)) ∧
        (note .stale).isSealed = false) ∧
      (let m := (queued .b (List.replicate 15 (note .request)) base).noteUnit .b
       m.delivery = .delivering ∧ (¬ ∃ q ∈ m.queue, q.reason = .lost) ∧ m.queue.length = 15) ∧
      (let m := (queued .b (List.replicate 14 (note .request)) base).noteUnit .b
       m.delivery = .delivering ∧ (¬ ∃ q ∈ m.queue, q.reason = .lost) ∧ m.queue.length = 14) ∧
      (let m := (queued .b (List.replicate 15 (note .request) ++ [note .lost]) base).noteUnit .b
       m.delivery = .delivering ∧ (∃ q ∈ m.queue, q.reason = .lost)) := by decide

theorem witness_NoteTakePopsTheHead :
    ((held .b base).listens .b ∧ (held .b base).endsQuietly .b = true ∧ ((held .b base).noteUnit .b).queue = []) ∧
      (let s := queued .b [note .lost] (held .b base)
       s.listens .b ∧ s.endsQuietly .b = true ∧ (s.noteUnit .b).queue = [note .lost] ∧ s.inside .b = true ∧
        (s.healthOf .b).mark = false) ∧
      (let s := queued .b [note .lost] (marked .b base)
       s.listens .b ∧ s.endsQuietly .b = true ∧ s.inside .b = true ∧ (s.healthOf .b).mark = true) := by decide

/-! ### Witnesses: requests -/

theorem witness_RequestBeginsOrJoinsARound :
    (let s := queued .a (List.replicate 14 (note .stale)) base
     s.ready .b ∧ (s.healthOf .b).state = .active ∧ (95 : SlotIx).val = (95#8).toNat ∧ (s.slot 95).state = .live ∧
      (s.slot 95).config.owner ≠ .b ∧ (s.slot 95).config.requestDeadline ≠ 0#8 ∧ s.watch.hits .request 95 (.port .b) = false ∧
      (s.slot 95).config.answer = .ownerAnswers ∧ (s.slot 95).orphaned = false ∧ s.lostOwners.has .a = false ∧
      (s.slot 95).requesters = PortSet.empty ∧ s.roomFor .a = true) ∧
      (let s := at95 { live with requesters := PortSet.empty.insert .c }
       s.ready .b ∧ (s.slot 95).config.answer = .ownerAnswers ∧ (s.slot 95).requesters ≠ PortSet.empty) ∧
      (let s := { at95 { live with config := autoConfig } with queue := List.replicate 7 (value (.port .a) 1) }
       s.ready .b ∧ (s.slot 95).config.answer = .autoAnswer ∧ (s.slot 95).state = .live ∧
        (s.slot 95).requesters = PortSet.empty ∧ s.queue.length = 7) ∧
      (let s := at95 { live with config := autoConfig, requesters := PortSet.empty.insert .c }
       s.ready .b ∧ (s.slot 95).config.answer = .autoAnswer ∧ (s.slot 95).requesters ≠ PortSet.empty) := by decide

theorem witness_RequestRefusals :
    (let s := healthy .b .degraded 251 base
     s.ready .b ∧ s.bears .b 4 ∧ (s.healthOf .b).state = .degraded) ∧
      (base.ready .b ∧ base.bears .b 4 ∧ (base.healthOf .b).state = .active ∧ 95 < (96#8).toNat ∧
        (94 : SlotIx).val = (94#8).toNat ∧ (base.slot 94).state = .unused) ∧
      (let s := at95 { live with state := .retiring }
       s.ready .b ∧ (s.slot 95).state = .retiring) ∧
      (base.ready .a ∧ base.bears .a 4 ∧ (base.healthOf .a).state = .active ∧ (base.slot 95).config.owner = .a) ∧
      (let s := at95 { live with config := { config with requestDeadline := 0#8 } }
       s.ready .b ∧ (s.slot 95).config.requestDeadline = 0#8) := by decide

theorem witness_RequestRefusals_by_answer_mode :
    (let s := at95 { live with orphaned := true }
     s.ready .b ∧ (s.slot 95).config.answer = .ownerAnswers ∧ (s.slot 95).orphaned = true) ∧
      (let s := { base with lostOwners := PortSet.empty.insert .a }
       s.ready .b ∧ s.lostOwners.has (s.slot 95).config.owner = true) ∧
      (let s := at95 { live with config := autoConfig, state := .opened }
       s.ready .b ∧ (s.slot 95).config.answer = .autoAnswer ∧ (s.slot 95).state = .opened) ∧
      (let s := { at95 { live with config := autoConfig } with queue := List.replicate 8 (value (.port .a) 1) }
       s.ready .b ∧ (s.slot 95).requesters = PortSet.empty ∧ s.queue.length = 8) := by decide

/-- A deadline of slot 95 that has come, with C its requester, whose queue holds 14 notes. -/
def dueRound (r : Slot) : State :=
  queued .c (List.replicate 14 (note .request))
    (at95 { r with requesters := PortSet.empty.insert .c, deadline := some 0#32 })

theorem witness_DeadlineExpires :
    (let s := dueRound { live with config := autoConfig }
     s.settled ∧ (s.slot 95).deadline = some 0#32 ∧ s.exchange = .running ∧ s.time = 0#32 ∧
      (s.slot 95).config.answer = .autoAnswer) ∧
      (∀ q, ((dueRound live).slot 95).requesters.has q = true → (dueRound live).roomFor q = true) ∧
      (let s := parked (dueRound live)
       (s.slot 95).parked = some (value (.port .a) 4) ∧ (value (.port .a) 4).slot = 95 ∧
        (value (.port .a) 4).snapshot = true ∧ (value (.port .a) 4).source = .port (s.slot 95).config.owner) ∧
      (let s := healthy .a .degraded 247 (dueRound live)
       s.settled ∧ (s.slot 95).config.answer = .ownerAnswers ∧ s.queue ++ s.due = [] ∧ (s.slot 95).parked = none ∧
        s.flight = none ∧ s.inside .a = true ∧ (s.healthOf .a).mark = false ∧ s.bears .a 8) ∧
      (inState .restarting (dueRound live)).exchange = .restarting ∧ 0#32 = 0xFFFFFFFF#32 + BitVec.ofNat 32 1 ∧
      0#32 = 0x80000001#32 + BitVec.ofNat 32 (2 ^ 31 - 1) := by
  refine ⟨by decide, fun q => ?_, by decide⟩
  cases q <;> decide

/-- A freshness timer of slot 95 that has come, with D a subscriber, whose queue holds 14 notes. -/
def dueFreshness : State :=
  queued .d (List.replicate 14 (note .request)) (listening .d (at95 { live with freshness := some 0#32 }))

theorem witness_FreshnessExpires :
    (dueFreshness.settled ∧ (dueFreshness.slot 95).freshness = some 0#32 ∧ dueFreshness.exchange = .running ∧
      dueFreshness.time = 0#32 ∧ dueFreshness.subscribes 95 .d = true) ∧
      (∀ q, dueFreshness.subscribes 95 q = true →
        dueFreshness.roomFor q = true ∧ ∀ m ∈ (dueFreshness.noteUnit q).queue, m.reason = .stale → m.slot ≠ 95) ∧
      (inState .frozen dueFreshness).exchange = .frozen ∧ 0#32 = 0xFFFFFFFF#32 + BitVec.ofNat 32 1 ∧
      0#32 = 0x80000001#32 + BitVec.ofNat 32 (2 ^ 31 - 1) := by
  refine ⟨by decide, fun q => ?_, by decide⟩
  cases q <;> decide

/-! ### Witnesses: the token and configuration -/

theorem witness_TokenRules :
    (let s := healthy .b .degraded 251 base
     s.ready .b ∧ s.bears .b 4 ∧ (s.healthOf .b).state = .degraded ∧ s.token ≠ some .b) ∧
      ((tok .b base).ready .b ∧ (tok .b base).bears .b 4 ∧ ((tok .b base).healthOf .b).state = .active ∧
        (tok .b base).token = some .b) ∧
      ((tok .a base).ready .b ∧ Port.a ≠ Port.b ∧ (tok .a base).token = some .a) ∧ (base.ready .b ∧ base.token = none) := by decide

theorem witness_ConfigureOpensTheSlot :
    let s := args .a 0x0FFF#16 4095#16 0xFF8F#16 (tok .a base)
    (s.ready .a ∧ s.token = some .a ∧ (94 : SlotIx).val = (94#8).toNat ∧ (s.slot 94).state = .unused ∧
      (s.port .a).arg0.toNat ≤ 0x0FFF ∧ (s.port .a).arg1.toNat ≤ 4095 ∧ 1 ≤ ((s.port .a).arg2.toNat / 16) % 16 ∧
      ((s.port .a).arg2.toNat / 16) % 16 ≤ 8 ∧ s.watch.hits .config 94 (.port .a) = false) ∧
      ∀ j, j ≠ 94 → (s.slot j).state ≠ .unused → (s.slot j).config.identifier.toNat ≠ (s.port .a).arg0.toNat := by
  refine ⟨by decide, fun j _ hj => ?_⟩
  have e : (args .a 0x0FFF#16 4095#16 0xFF8F#16 (tok .a base)).slot j = if j = 95 then live else Slot.cleared := slot_at95 live j
  rw [e] at hj ⊢
  split at hj
  · rw [if_pos ‹_›]
    decide
  · exact absurd rfl hj

theorem witness_ConfigureRefusals :
    (let s := args .a 0x0123#16 0#16 0x0010#16 (tok .a base)
     s.ready .a ∧ s.bears .a 4 ∧ s.token = some .a ∧ 95 < (96#8).toNat ∧ (95 : SlotIx).val = (95#8).toNat ∧
      (s.slot 95).state = .live ∧ (s.slot 94).state = .unused ∧ (95 : SlotIx) ≠ 94 ∧ (s.slot 95).state ≠ .unused ∧
      (s.slot 95).config.identifier.toNat = (s.port .a).arg0.toNat ∧ ((s.port .a).arg2.toNat / 16) % 16 = 1) ∧
      (let s := tok .a (at95 { live with state := .retiring })
       s.ready .a ∧ s.bears .a 4 ∧ s.token = some .a ∧ (s.slot 95).state = .retiring) ∧
      0x0FFF < (0x1000#16).toNat ∧ 4095 < (4096#16).toNat ∧ ((0xFF0F#16).toNat / 16) % 16 = 0 ∧ 8 < ((0xFF9F#16).toNat / 16) % 16 := by
  decide

theorem witness_RetireOfASlotInUse :
    (let s := healthy .b .degraded 251 (tok .b base)
     s.ready .b ∧ s.bears .b 4 ∧ s.token = some .b ∧ 95 < (96#8).toNat ∧ (94 : SlotIx).val = (94#8).toNat ∧
      (s.slot 94).state = .unused) ∧
      (let s := tok .b (at95 { live with state := .retiring })
       s.ready .b ∧ s.bears .b 4 ∧ s.token = some .b ∧ (s.slot 95).state = .retiring) ∧
      (let s := tok .b (held .c base)
       s.ready .b ∧ s.bears .b 4 ∧ s.token = some .b ∧ (s.slot 95).state = .live ∧ s.holding .c 95 = true ∧
        s.queue ++ s.due = [] ∧ (s.slot 95).parked = none ∧ (s.slot 95).requesters = PortSet.empty ∧
        (s.slot 95).deadline = none ∧ s.watch.hits .config 95 (.port .b) = false) ∧
      (let s := tok .b (flying false base)
       s.ready .b ∧ s.landingMark 95 = true) := by decide

theorem witness_RetireRemovesWhatWaits :
    (let s := tok .b { base with queue := [value (.port .a) 4] }
     s.ready .b ∧ s.token = some .b ∧ (95 : SlotIx).val = (95#8).toNat ∧ (s.slot 95).state = .live ∧
      s.watch.hits .config 95 (.port .b) = false ∧ s.holding .a 95 = false ∧ s.holding .b 95 = false ∧ s.holding .c 95 = false ∧
      s.holding .d 95 = false ∧ s.landingMark 95 = false) ∧
      (let s := tok .b (parked (held .c base))
       s.ready .b ∧ s.token = some .b ∧ (s.slot 95).state = .live ∧ s.holding .c 95 = true) := by decide

/-- Slot 95, to which D subscribes and on which C asks, with two entries, one of them of A, whose queue holds 12 notes. -/
def retiringWithNotes : State :=
  queued .a (List.replicate 12 (note .request))
    (listening .d (tok .b { at95 { live with requesters := PortSet.empty.insert .c, deadline := some 9#32 } with
      queue := [value (.port .a) 4, value .exchange 5] }))

theorem witness_RetireRemovesWhatWaits_with_room_for_its_notes :
    (retiringWithNotes.ready .b ∧ retiringWithNotes.token = some .b ∧ (retiringWithNotes.slot 95).state = .live) ∧
      retiringWithNotes.subscribes 95 .d = true ∧
      ∀ q, (retiringWithNotes.noteUnit q).delivery = .delivering ∧
        (∀ m ∈ (retiringWithNotes.noteUnit q).queue, m.reason ≠ .lost) ∧
        (retiringWithNotes.noteUnit q).queue.length +
          (retiringWithNotes.queue.filter fun o => o.slot == 95 && o.source == .port q).length + 2 ≤ 15 ∧
        ∀ m ∈ (retiringWithNotes.noteUnit q).queue, m.reason = .retired → m.slot ≠ 95 := by
  refine ⟨by decide, by decide, fun q => ?_⟩
  cases q <;> decide

theorem witness_SettingsAndTimeAreSet :
    ((tok .a base).ready .a ∧ (tok .a base).token = some .a) ∧
      (let s := args .a 1#16 1#16 0#16 (tok .a base)
       s.ready .a ∧ (s.port .a).arg0.toNat = 1 ∧ (s.port .a).arg0.toNat = Port.b.number ∧ (s.port .a).arg1.toNat = 1) ∧
      (let s := args .a 255#16 2#16 0#16 (healthy .a .degraded 251 (tok .a base))
       s.ready .a ∧ s.token = some .a ∧ (s.port .a).arg0.toNat = 255 ∧ 3 < (s.port .a).arg0.toNat ∧ s.bears .a 4) ∧
      (let s := args .a 3#16 0#16 0#16 (tok .a base)
       s.ready .a ∧ (s.port .a).arg0.toNat = Port.d.number ∧ (s.port .a).arg1.toNat ≤ 1) ∧
      ((args .a 4#16 2#16 0#16 base).port .a).arg0.toNat = 4 ∧ 1 < ((args .a 4#16 2#16 0#16 base).port .a).arg1.toNat ∧
      255 < ((args .a 256#16 0#16 0#16 base).port .a).arg0.toNat ∧ ((args .a 0#16 0#16 0#16 base).port .a).arg0.toNat = 0 := by decide

/-! ### Witnesses: freeze, step, inspection and watch -/

theorem witness_FreezeByExchangeState :
    (let s := tok .a base
     s.ready .a ∧ s.token = some .a ∧ s.exchange = .running ∧ s.flight = none ∧ s.due = []) ∧
      ((flying false (tok .a base)).ready .a ∧ (flying false (tok .a base)).flight.isSome = true) ∧
      (inState .freezing (flying false (tok .a base))).ready .a ∧ (inState .frozen (tok .a base)).ready .a := by decide

theorem witness_FreezeByExchangeState_in_stepping :
    (let s := stepping (.step (.ripe 95)) (tok .a base)
     s.ready .a ∧ s.exchange = .stepping ∧ s.task = some (.step (.ripe 95))) ∧
      (let s := stepping (.drain 95) (flying false (tok .a base))
       s.ready .a ∧ s.exchange = .stepping ∧ s.flight.isSome = true) ∧
      (let s := stepping (.drain 95) (tok .a base)
       s.ready .a ∧ s.exchange = .stepping ∧ s.flight = none ∧ s.due = [] ∧ s.task = some (.drain 95)) := by decide

theorem witness_StepAndResumeLeaveFrozen :
    ((tok .a base).ready .a ∧ (tok .a base).token = some .a ∧ (tok .a base).exchange ≠ .frozen) ∧
      (let s := inState .frozen (tok .a { parked base with ripe := [95] })
       s.ready .a ∧ s.exchange = .frozen ∧ s.ripe = [95]) ∧
      (let s := inState .frozen (tok .a { base with queue := [value (.port .a) 4] })
       s.ready .a ∧ s.ripe = [] ∧ s.queue = [value (.port .a) 4]) ∧
      (let s := inState .frozen (tok .a base)
       s.ready .a ∧ s.ripe = [] ∧ s.queue = []) := by decide

theorem witness_InspectCopiesAnEntry :
    ((tok .a base).ready .a ∧ (tok .a base).token = some .a ∧ (tok .a base).exchange ≠ .frozen) ∧
      (let s := args .a 8#16 0#16 0#16 (healthy .a .degraded 251 (inState .frozen (tok .a base)))
       s.ready .a ∧ s.exchange = .frozen ∧ 7 < (s.port .a).arg0.toNat ∧ s.bears .a 4) ∧
      (let s := args .a 7#16 0#16 0#16 (inState .frozen (tok .a { base with queue := List.replicate 7 (value (.port .a) 4) }))
       s.ready .a ∧ (s.port .a).arg0.toNat ≤ 7 ∧ s.queue.length ≤ (s.port .a).arg0.toNat) ∧
      (let s := args .a 7#16 0#16 0#16 (inState .frozen (tok .a { base with queue := List.replicate 8 (value .exchange 4) }))
       s.ready .a ∧ (s.port .a).arg0.toNat ≤ 7 ∧ s.queue[(s.port .a).arg0.toNat]? = some (value .exchange 4)) := by decide

theorem witness_CancelHeadDropsTheHead :
    ((tok .a base).ready .a ∧ (tok .a base).token = some .a ∧ (tok .a base).exchange ≠ .frozen) ∧
      (let s := inState .frozen (tok .a base)
       s.ready .a ∧ s.exchange = .frozen ∧ s.queue = []) ∧
      (let s := queued .c (List.replicate 14 (note .request))
          (inState .frozen (tok .a { base with queue := [value (.port .c) 4] }))
       s.ready .a ∧ s.exchange = .frozen ∧ s.queue = [value (.port .c) 4] ∧ s.inside .c = true ∧ s.roomFor .c = true) ∧
      (let s := inState .frozen (tok .a { dueRound live with queue := [value .exchange 4] })
       s.ready .a ∧ s.queue = [value .exchange 4] ∧ s.roomFor .c = true ∧ (s.slot 95).requesters = PortSet.empty.insert .c) := by
  decide

theorem witness_WatchIsArmedDisarmedAndRead :
    (let s := args .a 95#16 3#16 0x0021#16 (tok .a base)
     s.ready .a ∧ s.token = some .a ∧ (s.port .a).arg0.toNat = (95 : SlotIx).val ∧ (s.port .a).arg1.toNat = Port.d.number ∧
      (s.port .a).arg2.toNat % 16 ≠ 0 ∧ WatchAction.freezeBefore.code.toNat = ((s.port .a).arg2.toNat / 16) % 4) ∧
      (let s := args .a 0x00FF#16 5#16 0x000F#16 (tok .a base)
       s.ready .a ∧ (s.port .a).arg0 = 0x00FF#16 ∧ (s.port .a).arg1 = 5#16 ∧ WatchAction.record.code.toNat = ((s.port .a).arg2.toNat / 16) % 4) ∧
      (let s := args .a 96#16 6#16 0x0030#16 (healthy .a .degraded 251 (tok .a base))
       s.ready .a ∧ s.bears .a 4 ∧ 95 < (s.port .a).arg0.toNat ∧ (s.port .a).arg0 ≠ 0x00FF#16 ∧ 5 < (s.port .a).arg1.toNat ∧
        (s.port .a).arg2.toNat % 16 = 0 ∧ 2 < ((s.port .a).arg2.toNat / 16) % 4 ∧ 7 < (s.port .a).arg0.toNat) ∧
      7 < (8#16 : Word).toNat ∧ ((args .a 7#16 0#16 0#16 (tok .a base)).ready .a ∧
        ((args .a 7#16 0#16 0#16 (tok .a base)).port .a).arg0.toNat ≤ 7) := by decide

theorem witness_WatchMeetsALanding :
    let s := fun a => watching a 65535#16 { base with queue := [value (.port .a) 4] }
    ∀ a ∈ [WatchAction.record, .freezeAfter, .freezeBefore],
      (s a).settled ∧ (s a).exchange = .running ∧ (s a).flight = none ∧ (s a).restartMark = false ∧ (s a).due = [] ∧
        (s a).queue = [value (.port .a) 4] ∧ (s a).holding .a 95 = false ∧ (s a).holding .b 95 = false ∧
        (s a).holding .c 95 = false ∧ (s a).holding .d 95 = false ∧ (value (.port .a) 4).passed = false ∧
        (s a).watch.armed = true ∧ (s a).watch.onLanding = true ∧ (s a).watch.slot = none ∧ (s a).watch.source = none ∧
        (s a).watch.action = a := by decide

/-- B holds slot 95, which has a pending value, under an armed watch. -/
def watchedRelease (a : WatchAction) : State := parked (held .b (watching a 7#16 base))

theorem witness_WatchMeetsALanding_of_a_pending_value :
    ∀ a ∈ [WatchAction.record, .freezeAfter, .freezeBefore],
      (let s := watching a 65535#16 { base with due := [value (.port .a) 4] }
       s.settled ∧ s.exchange = .running ∧ s.flight = none ∧ s.restartMark = false ∧ s.due = [value (.port .a) 4] ∧
        s.ripe = [] ∧ (value (.port .a) 4).passed = false ∧ s.watch.action = a) ∧
      (let s := watching a 65535#16 (stepping (.step (.ripe 95)) ripened)
       s.settled ∧ s.exchange = .stepping ∧ s.flight = none ∧ s.restartMark = false ∧ s.due = [] ∧
        s.task = some (.step (.ripe 95)) ∧ (95 : SlotIx) ∈ s.ripe ∧ (s.slot 95).parked = some (value (.port .a) 4)) ∧
      (watching a 0#16 (stepping (.drain 95) ripened)).task = some (.drain 95) := by decide

theorem witness_WatchMeetsALanding_by_a_step :
    ∀ a ∈ [WatchAction.record, .freezeAfter, .freezeBefore],
      let s := watching a 65535#16 (stepping (.step (.head 4)) { base with queue := [value (.port .a) 4] })
      s.settled ∧ s.exchange = .stepping ∧ s.flight = none ∧ s.restartMark = false ∧ s.due = [] ∧
        s.task = some (.step (.head (value (.port .a) 4).order)) ∧ s.queue = [value (.port .a) 4] ∧ s.holding .a 95 = false ∧
        s.holding .b 95 = false ∧ s.holding .c 95 = false ∧ s.holding .d 95 = false ∧ (value (.port .a) 4).passed = false ∧
        s.watch.action = a := by decide

theorem witness_WatchMeetsALanding_by_a_release :
    ∀ a ∈ [WatchAction.record, .freezeAfter, .freezeBefore],
      (watchedRelease a).ready .b ∧
      (watchedRelease a).hold .b = some { slot := 95, expiry := 0#32, viewState := .seen, identifier := 0x123#12 } ∧
      (watchedRelease a).heldByOther .b 95 = false ∧ ((watchedRelease a).slot 95).parked = some (value (.port .a) 4) ∧
      ((watchedRelease a).slot 95).state ≠ .retiring ∧ (watchedRelease a).exchange = .running ∧
      (watchedRelease a).flight = none ∧ (watchedRelease a).restartMark = false ∧ (watchedRelease a).due = [] ∧
      (watchedRelease a).ripe = [] ∧ (watchedRelease a).watch.action = a := by decide

theorem witness_WatchMeetsALanding_catches (a : WatchAction) :
    (watchedRelease a).catches .landing 95 (.port .a) ∧
      (watching a 65535#16 { base with due := [value (.port .a) 4] }).catches .landing 95 (.port .a) ∧
      (watching a 65535#16 (stepping (.step (.head 4)) { base with queue := [value (.port .a) 4] })).catches .landing 95 (.port .a) :=
  ⟨watching_catches (watchedRelease a) a 7#16 rfl _ _ _, watching_catches _ a 65535#16 (by rfl) _ _ _,
    watching_catches _ a 65535#16 (by rfl) _ _ _⟩

theorem witness_WatchMeetsAView :
    let s := fun a => held .b (watching a 65535#16 base)
    ∀ a ∈ [WatchAction.record, .freezeAfter, .freezeBefore],
      (s a).ready .b ∧ (95 : SlotIx).val = (95#8).toNat ∧ ((s a).slot 95).state = .live ∧ (s a).holding .b 95 = true ∧
        (s a).exchange = .running ∧ (s a).due = [] ∧ (s a).watch.armed = true ∧ (s a).watch.onView = true ∧
        (s a).watch.slot = none ∧ (s a).watch.source = none ∧ (s a).watch.action = a ∧ (s a).flight = none ∧
        (flying false (s a)).ready .b ∧ (flying false (s a)).flight.isSome = true := by decide

/-- An armed watch that freezes, and the token at B. -/
def watchedToken (s : State) : State := watching .freezeBefore 65535#16 (tok .b s)

theorem witness_WatchMeetsAView_new_or_a_request :
    (watchedToken base).catches .view 95 (.port .b) ∧ (watchedToken base).catches .request 95 (.port .b) ∧
      (let s := watchedToken base
       s.ready .b ∧ (95 : SlotIx).val = (95#8).toNat ∧ s.due = [] ∧ (s.slot 95).state = .live ∧ s.holding .b 95 = false ∧
        s.landingMark 95 = false ∧ s.endsQuietly .b = true ∧ (s.healthOf .b).state = .active ∧ (s.slot 95).config.owner ≠ .b ∧
        (s.slot 95).config.requestDeadline ≠ 0#8 ∧ (s.slot 95).config.answer = .ownerAnswers ∧ (s.slot 95).orphaned = false ∧
        s.lostOwners.has .a = false ∧ (s.slot 95).requesters = PortSet.empty ∧ s.roomFor .a = true) ∧
      (let s := watchedToken (at95 { live with requesters := PortSet.empty.insert .c })
       s.ready .b ∧ s.due = [] ∧ (s.slot 95).requesters ≠ PortSet.empty) :=
  ⟨watching_catches _ .freezeBefore 65535#16 (by rfl) _ _ _, watching_catches _ .freezeBefore 65535#16 (by rfl) _ _ _, by decide, by decide⟩

theorem witness_WatchMeetsAView_or_a_request_that_the_exchange_answers :
    let s := watchedToken { at95 { live with config := autoConfig } with queue := List.replicate 7 (value (.port .a) 1) }
    s.catches .request 95 (.port .b) ∧
      (s.ready .b ∧ s.due = [] ∧ (s.slot 95).state = .live ∧ (s.slot 95).config.answer = .autoAnswer ∧
        (s.healthOf .b).state = .active ∧ (s.slot 95).config.owner ≠ .b ∧ (s.slot 95).config.requestDeadline ≠ 0#8 ∧
        (s.slot 95).requesters = PortSet.empty ∧ s.queue.length = 7) ∧
      ((at95 { live with config := autoConfig, requesters := PortSet.empty.insert .c }).slot 95).requesters ≠ PortSet.empty :=
  ⟨watching_catches _ .freezeBefore 65535#16 (by rfl) _ _ _, by decide, by decide⟩

theorem test_a_retirement_that_completes_is_captured_with_a_cleared_record :
    (after (.retireSlot .b 95#8) (watching .record 0#16 (tok .b base))).watch.captures.map (fun e => (e.identifier, e.sequence)) =
      [(0#12, 0#16)] := by decide

theorem witness_WatchMeetsAView_or_a_retirement_that_completes :
    (watchedToken base).catches .config 95 (.port .b) ∧
      ((watchedToken base).ready .b ∧ (watchedToken base).token = some .b ∧ (watchedToken base).due = [] ∧
        ((watchedToken base).slot 95).state = .live ∧ (watchedToken base).landingMark 95 = false ∧ (watchedToken base).queue = [] ∧
        ((watchedToken base).slot 95).parked = none ∧
        ((watchedToken base).slot 95).requesters = PortSet.empty) ∧
      (∀ q, (watchedToken base).holding q 95 = false) ∧ (watchedToken base).roomToRetire 95 := by
  refine ⟨watching_catches _ .freezeBefore 65535#16 (by rfl) _ _ _, by decide, fun q => ?_, fun q => ?_⟩ <;> cases q <;> decide

theorem witness_WatchMeetsAView_or_configuration :
    let s := args .b 0x0FFF#16 4095#16 0xFF8F#16 (watchedToken (held .c base))
    s.catches .config 94 (.port .b) ∧ s.catches .config 95 (.port .b) ∧
      (s.ready .b ∧ s.token = some .b ∧ s.due = [] ∧ (94 : SlotIx).val = (94#8).toNat ∧ (s.slot 94).state = .unused ∧
        (s.port .b).arg0.toNat ≤ 0x0FFF ∧ (s.port .b).arg1.toNat ≤ 4095 ∧ 1 ≤ ((s.port .b).arg2.toNat / 16) % 16 ∧
        ((s.port .b).arg2.toNat / 16) % 16 ≤ 8) ∧
      ((s.slot 95).state = .live ∧ s.holding .c 95 = true ∧ s.queue = [] ∧ (s.slot 95).parked = none ∧
        (s.slot 95).requesters = PortSet.empty ∧ (s.slot 95).deadline = none) ∧
      ∀ j, j ≠ 94 → (s.slot j).state ≠ .unused → (s.slot j).config.identifier.toNat ≠ (s.port .b).arg0.toNat := by
  refine ⟨watching_catches _ .freezeBefore 65535#16 (by rfl) _ _ _, watching_catches _ .freezeBefore 65535#16 (by rfl) _ _ _, by decide, by decide, fun j _ hj => ?_⟩
  have e : (args .b 0x0FFF#16 4095#16 0xFF8F#16 (watchedToken (held .c base))).slot j = if j = 95 then live else Slot.cleared :=
    slot_at95 live j
  rw [e] at hj ⊢
  split at hj
  · rw [if_pos ‹_›]
    decide
  · exact absurd rfl hj

/-! ### Witnesses: the command unit and the window -/

theorem witness_CommandUnitAnswers :
    (let s := busy .a .view (.behindLanding 95) (healthy .a .degraded 251 base)
     s.listens .a ∧ s.inside .a = true ∧ (s.healthOf .a).mark = false ∧ s.bears .a 4 ∧ (s.port .a).unit.busy.isSome = true ∧
      commandCode 0x0000#16 ≠ 0x7F#8) ∧
      (base.listens .a ∧ base.inside .a = true ∧ (base.port .a).unit.busy = none ∧ ∀ c : Command, c.code ≠ commandCode 0x0000#16) ∧
      ((healthy .a .rejoining 0 base).listens .a ∧ (((healthy .a .rejoining 0 base).port .a).unit.busy = none) ∧
        Command.publish ≠ .resetPort ∧ Command.publish ≠ .rejoin ∧ ((healthy .a .rejoining 0 base).healthOf .a).state = .rejoining) ∧
      ((healthy .a .detached 0 base).listens .a ∧ ((healthy .a .detached 0 base).healthOf .a).state = .detached) ∧
      ((inState .restarting base).listens .a ∧ (inState .restarting base).inside .a = true ∧
        ((inState .restarting base).healthOf .a).mark = false) := by
  refine ⟨by decide, ⟨by decide, by decide, by decide, fun c => ?_⟩, by decide⟩
  cases c <;> decide

theorem witness_CommandUnitAnswers_outside_the_exchange :
    (let s := busy .a .resetPort .taken (marked .a base)
     s.listens .a ∧ (s.port .a).unit.busy.isSome = true ∧ (s.healthOf .a).mark = true) ∧
      (let s := busy .a .resetPort .taken (healthy .a .detached 0 base)
       s.listens .a ∧ (s.healthOf .a).state = .detached) ∧
      (let s := busy .a .resetPort .taken (healthy .a .rejoining 0 base)
       s.listens .a ∧ (s.healthOf .a).mark = false ∧ (s.healthOf .a).state = .rejoining) ∧
      (marked .a base).listens .a ∧ ((marked .a base).port .a).unit.busy = none ∧ ((marked .a base).healthOf .a).mark = true ∧
      ((marked .a base).healthOf .a).state ≠ .rejoining := by decide

theorem witness_RegisterWriteStoresTheWord :
    base.listens .a ∧ storedOffset 0x01#6 = true ∧ storedOffset 0x03#6 = true ∧ storedOffset 0x09#6 = true ∧ storedOffset 0x11#6 = true ∧
      storedOffset 0x28#6 = true ∧ storedOffset 0x37#6 = true ∧ storedOffset 0x04#6 = false ∧ storedOffset 0x08#6 = false ∧
      storedOffset 0x12#6 = false ∧ storedOffset 0x24#6 = false ∧ storedOffset 0x27#6 = false ∧ storedOffset 0x38#6 = false ∧
      storedOffset 0x3F#6 = false := by decide

theorem witness_AttentionFollowsItsEnables :
    (base.listens .b ∧ base.inHand .b .resetPort = false) ∧ (Instr.attentionEnableWrite .b 2#16).wellFormed = true ∧
      exec (.attentionEnableWrite .b 2#16) base = .next (after (.attentionEnableWrite .b 2#16) base) ∧
      ((after (.attentionEnableWrite .b 2#16) base).port .b).doneEnable ≠ (base.port .b).doneEnable :=
  ⟨by decide, by decide, rfl, by decide⟩

theorem witness_ReadsOfResultAndTime :
    base.listens .a ∧ (lineLow .a base).lineLow.has .a = true ∧ { base with inReset := true }.inReset = true := by decide

/-! ### Witnesses: resets -/

theorem witness_DeviceResetClearsAndHolds :
    { base with inReset := true }.inReset = true ∧ Instr.timeBaseAdvance ≠ .deviceReset ∧
      Instr.timeBaseAdvance ≠ .deviceResetRelease ∧ ∀ p, Instr.timeBaseAdvance ≠ .portReset p :=
  ⟨by decide, by decide, by decide, nofun⟩

theorem witness_PortResetClearsThePort :
    (let s := parked (held .c (held .b (healthy .b .rejoining 0 base)))
     s.settled ∧ s.lineLow.has .b = false ∧ s.endsQuietly .b = true ∧ s.inHand .b .resetPort = false ∧
      (s.healthOf .b).state = .rejoining) ∧
      ((lineLow .b base).settled ∧ (lineLow .b base).lineLow.has .b = true) ∧
      (let s := busy .b .resetPort .taken base
       s.settled ∧ s.inHand .b .resetPort = true) := by decide

theorem witness_RestartBegins :
    ((inState .frozen (tok .a base)).ready .a ∧ (inState .frozen (tok .a base)).token = some .a) ∧
      (let s := busy .c .freeze .taken (busy .b .expel (.expelling .d true) { inState .freezing base with restartMark := true })
       s.settled ∧ s.restartMark = true ∧ s.flight = none ∧ s.exchange ≠ .restarting ∧ (s.slot 95).state = .live ∧
        s.waitsForFreeze .c = true ∧ s.phaseOf .b = some (.expelling .d true) ∧ (s.port .a).unit.busy = none) := by decide

theorem witness_RestartEnds :
    (let s := busy .b .restart .taken (inState .restarting base)
     s.settled ∧ s.exchange = .restarting ∧ ∀ q ∈ Port.all, s.phaseOf q ≠ some .afterRestart) ∧
      (let s := busy .a .publish .afterRestart (inState .restarting base)
       s.settled ∧ s.exchange = .restarting ∧ (s.port .a).unit.busy = some ⟨.publish, 95#8, .afterRestart⟩ ∧
        Command.publish ≠ .resetPort ∧ (s.port .a).unit.done = false ∧ s.inside .a = true ∧ (s.healthOf .a).mark = false ∧
        s.lineLow.has .a = false ∧ s.phaseOf .b ≠ some .afterRestart ∧ s.phaseOf .c ≠ some .afterRestart ∧ s.phaseOf .d ≠ some .afterRestart) := by decide

/-! ### Witnesses: health and time -/

theorem witness_PenaltiesAndCredits :
    ((base.modHealth .a fun h => { h with mark := true }).healthOf .a).mark = true ∧
      (let s := healthy .a .degraded 255 base
       (s.healthOf .a).mark = false ∧ s.inside .a = true ∧ s.bears .a 0 ∧ 255 < (s.healthOf .a).score + 1 ∧
        (s.port .a).unit.busy = none) ∧
      (let s := busy .a .resetPort .taken (healthy .a .degraded 252 base)
       255 < (s.healthOf .a).score + 4 ∧ s.inHand .a .resetPort = true) ∧
      (let s := busy .a .view (.behindLanding 95) (healthy .a .degraded 252 base)
       255 < (s.healthOf .a).score + 4 ∧ (s.port .a).unit.busy = some ⟨.view, 95#8, .behindLanding 95⟩ ∧
        Command.view ≠ .resetPort) ∧
      ((healthy .a .detached 0 base).healthOf .a).state = .detached ∧
      ((healthy .a .rejoining 0 base).healthOf .a).state = .rejoining := by decide

theorem witness_ExpelByHealthState :
    (let s := args .a 4#16 0#16 0#16 (healthy .a .degraded 251 (tok .a base))
     s.ready .a ∧ s.token = some .a ∧ 3 < (s.port .a).arg0.toNat ∧ s.bears .a 4) ∧
      ((tok .a base).port .a).arg0.toNat = Port.a.number ∧
      (let s := args .a 3#16 0#16 0#16 (tok .a base)
       s.ready .a ∧ s.token = some .a ∧ Port.d ≠ Port.a ∧ (s.port .a).arg0.toNat = Port.d.number ∧ (s.healthOf .d).mark = false ∧
        s.inside .d = true ∧ (s.port .d).unit.busy = none) ∧
      (let s := busy .d .view (.behindLanding 95) (args .a 3#16 0#16 0#16 (tok .a base))
       s.ready .a ∧ (s.port .d).unit.busy = some ⟨.view, 95#8, .behindLanding 95⟩ ∧ Command.view ≠ .resetPort) ∧
      (let s := args .a 3#16 0#16 0#16 (tok .a (base.modHealth .d fun h => { h with mark := true }))
       s.ready .a ∧ (s.healthOf .d).mark = true) ∧
      (let s := args .a 3#16 0#16 0#16 (tok .a (healthy .d .rejoining 0 base))
       s.ready .a ∧ (s.healthOf .d).mark = false ∧ (s.healthOf .d).state = .rejoining) ∧
      (let s := args .a 3#16 0#16 0#16 (tok .a (healthy .d .detached 0 base))
       s.ready .a ∧ (s.healthOf .d).mark = false ∧ (s.healthOf .d).state = .detached) := by decide

/-- Port A, with auto-rejoin, waits with B for its detachment by score, and an EXPEL of A by D waits for that, in hand since then. -/
def leavingA : State :=
  busy .d .expel (.expelling .a false)
    { base.modHealth .a fun h => { h with mark := true, cause := .score, autoRejoin := true } with
      detachQueue := [[.a, .b], [.c]] }

theorem leavingA_RequesterLaw : leavingA.RequesterLaw := by
  intro k
  have e : leavingA.slot k = if k = 95 then live else Slot.cleared := slot_at95 live k
  rw [e]
  split <;> decide

theorem witness_DetachmentRemovesThePort :
    leavingA.settled ∧ leavingA.RequesterLaw ∧ leavingA.detaching = none ∧ leavingA.detachQueue = [.a, .b] :: [[.c]] ∧
      Port.a ∈ [Port.a, .b] ∧ (leavingA.healthOf .a).mark = true :=
  ⟨by decide, leavingA_RequesterLaw, by decide⟩

/-- The same detachment, with step `st` to take next. -/
def goneOnA (st : DetachStep) : State := { leavingA with detachQueue := [[.b], [.c]], detaching := some (.a, st) }

theorem witness_DetachmentRemovesThePort_from_a_later_step (st : DetachStep) :
    (goneOnA st).settled ∧ (goneOnA st).RequesterLaw ∧ (goneOnA st).detaching = some (.a, st) ∧
      ((goneOnA st).healthOf .a).mark = true :=
  ⟨⟨rfl, rfl⟩, leavingA_RequesterLaw, rfl, by cases st <;> decide⟩

theorem witness_DetachmentRemovesThePort_and_sends_it_back :
    leavingA.phaseOf .d = some (.expelling .a false) ∧ (leavingA.healthOf .d).mark = false ∧
      ((after (.detachment .a .orphan) leavingA).healthOf .d).mark = false ∧
      ((after (.detachment .a .orphan) leavingA).healthOf .a).cause = .expelled := by decide +kernel

theorem witness_PortRejoins :
    (base.settled ∧ (base.port .b).unit.busy = none ∧ base.exchange ≠ .restarting ∧ (base.healthOf .b).mark = false ∧
      base.inside .b = true) ∧
      ((healthy .b .detached 0 base).settled ∧ ((healthy .b .detached 0 base).healthOf .b).state = .detached) ∧
      (let s := base.modHealth .b fun h => { h with state := .rejoining, rejoinCount := 14, quiet := some 0#32 }
       s.settled ∧ (s.healthOf .b).state = .rejoining ∧ (s.healthOf .b).quiet = some 0#32 ∧ s.exchange = .running ∧
        s.time = 0#32 ∧ (s.healthOf .b).rejoinCount + 1 < 16) ∧
      (let s := base.modHealth .b fun h => { h with state := .rejoining, rejoinCount := 15, quiet := some 0#32 }
       (s.healthOf .b).rejoinCount + 1 = 16) ∧
      (inState .frozen base).exchange = .frozen := by decide

theorem witness_PortRejoins_refused_or_waiting :
    ((healthy .b .rejoining 0 base).settled ∧ ((healthy .b .rejoining 0 base).port .b).unit.busy = none ∧
      (healthy .b .rejoining 0 base).lineLow.has .b = false ∧ ((healthy .b .rejoining 0 base).healthOf .b).state = .rejoining) ∧
      (((marked .b base).healthOf .b).mark = true ∧ ((marked .b base).healthOf .b).state ≠ .rejoining) ∧
      (let s := inState .restarting (healthy .b .detached 0 base)
       s.settled ∧ (s.healthOf .b).mark = false ∧ (s.healthOf .b).state ≠ .rejoining ∧ s.exchange = .restarting) := by decide

theorem witness_TimeBaseRunsOnlyWhenItMay :
    (base.settled ∧ base.exchange = .running ∧ base.prescaler ≠ 15#4 ∧ { base with prescaler := 15#4 }.prescaler = 15#4 ∧
      (inState .frozen base).settled ∧ (inState .frozen base).exchange = .frozen ∧ { base with inReset := true }.inReset = true) ∧
      ({ base with prescaler := 15#4 }.timerDue = false ∧ (held .b { base with prescaler := 15#4 }).timerDue = true) ∧
      Instr.timeBaseAdvance.wellFormed = true ∧
      exec .timeBaseAdvance { base with prescaler := 15#4 } = .next (after .timeBaseAdvance { base with prescaler := 15#4 }) ∧
      (after .timeBaseAdvance { base with prescaler := 15#4 }).time ≠ base.time :=
  ⟨by decide, by decide +kernel, by decide, rfl, by decide⟩

/-- A hold that is to expire one unit of the time base from now, with a cycle that waits. -/
def ticking : State := { held .b base with time := 0xFFFFFFFF#32, prescaler := 15#4, pending := [.timeBaseAdvance] }

theorem witness_TimeBaseRunsOnlyWhenItMay_keeps_TimerLaw :
    ticking.TimerLaw ∧ step ticking = .next (after .timeBaseAdvance { ticking with pending := [] }) := by
  refine ⟨⟨fun p h e => ?_, fun p e h => ?_, fun k d h => ?_⟩, rfl⟩
  · cases p <;> cases e
    exact (by decide : (0#32 - 0xFFFFFFFF#32).msb = false)
  · cases p <;> cases h
  · have e : ticking.slot k = if k = 95 then live else Slot.cleared := slot_at95 live k
    rw [e] at h
    split at h <;> rcases h with h | h <;> cases h

end Sys2Proof.Tests
end

section
namespace Sys2Proof.Publication
open Sys2Proof Sys2Proof.Machine

/-! ### The Notification Queue's law (R77) -/

/-- The law looks at the reasons of the notes alone. -/
theorem noteQueueLaw_of_reasons {q q' : List Note} (e : q'.map Note.reason = q.map Note.reason) (h : NoteQueueLaw q) :
    NoteQueueLaw q' := by
  obtain ⟨ordinary, hno, hlen, hq⟩ := h
  have keeps {l l' : List Note} (e : l'.map Note.reason = l.map Note.reason) (h : ∀ n ∈ l, n.reason ≠ .lost) :
      ∀ n ∈ l', n.reason ≠ .lost := by
    intro n hn
    obtain ⟨m, hm, hr⟩ := List.mem_map.mp (e ▸ List.mem_map_of_mem (f := Note.reason) hn)
    exact hr ▸ h m hm
  rcases hq with rfl | ⟨l, hl, rfl⟩
  · exact ⟨q', keeps e hno, by simpa using (congrArg List.length e).trans_le (by simpa using hlen), .inl rfl⟩
  · rw [List.map_append] at e
    obtain ⟨o', l', rfl, ho, hl'⟩ := List.map_eq_append_iff.mp e
    obtain ⟨m, rfl, hm⟩ := List.map_eq_singleton_iff.mp hl'
    exact ⟨o', keeps ho hno, by simpa using (congrArg List.length ho).trans_le (by simpa using hlen),
      .inr ⟨m, hm.trans hl, rfl⟩⟩

theorem noteQueueLaw_nil : NoteQueueLaw [] := ⟨[], by simp, by simp, .inl rfl⟩

theorem noteQueueLaw_tail {n : Note} {q : List Note} (h : NoteQueueLaw (n :: q)) : NoteQueueLaw q := by
  obtain ⟨ordinary, hno, hlen, hq⟩ := h
  cases ordinary with
  | nil =>
    obtain ⟨l, -, e⟩ := hq.resolve_left (by simp)
    exact (List.cons.inj e).2 ▸ noteQueueLaw_nil
  | cons m ms =>
    have hms : ms.length ≤ Config.ordinaryLimit := by simp at hlen; omega
    refine ⟨ms, fun x hx => hno x (List.mem_cons_of_mem _ hx), hms, ?_⟩
    rcases hq with e | ⟨l, hl, e⟩
    · exact .inl (List.cons.inj e).2
    · exact .inr ⟨l, hl, (List.cons.inj e).2⟩

theorem lostPending_eq_false {q : List Note} : lostPending q = false ↔ ∀ n ∈ q, n.reason ≠ .lost := by
  simp [lostPending]

/-- A queue of at most 15 notes without LOST takes one more note at its tail: LOST, or an ordinary one
where there is a place. -/
theorem noteQueueLaw_snoc {q : List Note} {n : Note} (hl : lostPending q = false) (hq : q.length ≤ Config.ordinaryLimit)
    (h : n.reason = .lost ∨ q.length < Config.ordinaryLimit) : NoteQueueLaw (q ++ [n]) := by
  have hno := lostPending_eq_false.mp hl
  by_cases hn : n.reason = .lost
  · exact ⟨q, hno, hq, .inr ⟨n, hn, rfl⟩⟩
  · refine ⟨q ++ [n], ?_, by simpa using h.resolve_left hn, .inl rfl⟩
    intro m hm
    rcases List.mem_append.mp hm with hm | hm
    · exact hno m hm
    · exact List.mem_singleton.mp hm ▸ hn

theorem noteQueueLaw_length_of_no_lost {q : List Note} (h : NoteQueueLaw q) (hl : lostPending q = false) :
    q.length ≤ Config.ordinaryLimit := by
  obtain ⟨ordinary, -, hlen, rfl | ⟨l, hll, rfl⟩⟩ := h
  · exact hlen
  · exact absurd hll (lostPending_eq_false.mp hl l (by simp))

theorem fold_reason (q n : Note) : (q.fold n).reason = q.reason := by unfold Note.fold; split <;> rfl

theorem foldInto_reasons (n : Note) (q : List Note) : (foldInto n q).map Note.reason = q.map Note.reason := by
  induction q with
  | nil => rfl
  | cons m ms ih =>
    unfold foldInto
    split
    · rw [List.map_cons, fold_reason, List.map_cons]
    · rw [List.map_cons, ih, List.map_cons]

/-! ### The relation that every operation but an acceptance keeps (R32, R77) -/

/-- From `s` to `t` the limits of the Publication Queue and of the Notification Queues are kept. -/
structure Keeps (s t : State) : Prop where
  publication : s.PublicationLaw → t.PublicationLaw
  notes : s.NotesLaw → t.NotesLaw

theorem keeps_refl (s : State) : Keeps s s := ⟨id, id⟩

theorem Keeps.trans {s t u : State} (h : Keeps s t) (g : Keeps t u) : Keeps s u :=
  ⟨g.publication ∘ h.publication, g.notes ∘ h.notes⟩

theorem publicationLaw_of_sources {s t : State} (e : (t.queue.map Offer.source).Sublist (s.queue.map Offer.source))
    (h : s.PublicationLaw) : t.PublicationLaw := by
  have count (u : State) (p : Port) : u.entriesOf p = (u.queue.map Offer.source).count (.port p) := by
    rw [State.entriesOf, List.count_eq_countP, List.countP_map, List.countP_eq_length_filter]
    rfl
  refine ⟨?_, fun p => ?_⟩
  · simpa using e.length_le.trans (by simpa using h.1)
  · rw [count]
    exact (e.count_le _).trans (count s p ▸ h.2 p)

/-- The queue loses entries, or has some marked, and no note moves. -/
theorem keeps_of_sources {s t : State} (hn : t.notes = s.notes)
    (e : (t.queue.map Offer.source).Sublist (s.queue.map Offer.source)) : Keeps s t :=
  ⟨publicationLaw_of_sources e, fun h p => by rw [State.noteUnit, hn]; exact h p⟩

theorem keeps_of_queue_sublist {s t : State} (hn : t.notes = s.notes) (e : t.queue.Sublist s.queue) : Keeps s t :=
  keeps_of_sources hn (e.map _)

/-- Neither queue moves. -/
theorem keeps_of_same {s t : State} (hq : t.queue = s.queue) (hn : t.notes = s.notes) : Keeps s t :=
  keeps_of_queue_sublist hn (hq ▸ List.Sublist.refl _)

/-- What is kept from a state with the same queues is kept. -/
theorem Keeps.from_same {s t u : State} (g : Keeps t u) (hq : t.queue = s.queue) (hn : t.notes = s.notes) : Keeps s u :=
  (keeps_of_same hq hn).trans g

/-- An operation whose frame names neither queue. -/
theorem keeps_of_frame {s t u : State} (h : t = u) (hq : u.queue = s.queue) (hn : u.notes = s.notes) : Keeps s t :=
  h ▸ keeps_of_same hq hn

theorem keeps_of_notes {s t : State} (hq : t.queue = s.queue)
    (h : ∀ p, NoteQueueLaw (s.noteUnit p).queue → NoteQueueLaw (t.noteUnit p).queue) : Keeps s t :=
  ⟨publicationLaw_of_sources (by rw [hq]), fun hs p => h p (hs p)⟩

theorem keeps_foldl {α : Type} {f : State → α → State} (h : ∀ s x, Keeps s (f s x)) (l : List α) (s : State) :
    Keeps s (l.foldl f s) :=
  foldl_keeps (P := Keeps s) (fun u x hu => hu.trans (h u x)) l s (keeps_refl s)

theorem keeps_ite {c : Prop} [Decidable c] {s t u : State} (ht : c → Keeps s t) (hu : ¬ c → Keeps s u) :
    Keeps s (if c then t else u) := by
  split
  · next h => exact ht h
  · next h => exact hu h

/-- One port's Notification Unit record changes. -/
theorem keeps_modNotes (s : State) (p : Port) (f : NoteUnit → NoteUnit)
    (h : NoteQueueLaw (s.noteUnit p).queue → NoteQueueLaw (f (s.noteUnit p)).queue) : Keeps s (s.modNotes p f) :=
  keeps_of_notes rfl fun q hq => by
    rw [State.noteUnit_modNotes]
    split
    · next e => exact h (e ▸ hq)
    · exact hq

end Sys2Proof.Publication
end

section
namespace Sys2Proof.Publication
open Sys2Proof Sys2Proof.Machine

/-! ### Operations that leave both kinds of queue alone -/

section Calm
variable (s : State)

theorem keeps_modPort (p : Port) (f : PortUnit → PortUnit) : Keeps s (s.modPort p f) := keeps_of_same rfl rfl
theorem keeps_modSlot (k : SlotIx) (f : Slot → Slot) : Keeps s (s.modSlot k f) := keeps_of_same rfl rfl
theorem keeps_mapSlots (f : Slot → Slot) : Keeps s (s.mapSlots f) := keeps_of_same rfl rfl
theorem keeps_modHealth (p : Port) (f : Health → Health) : Keeps s (s.modHealth p f) := keeps_of_same rfl rfl
theorem keeps_modFlight (f : Landing → Landing) : Keeps s (s.modFlight f) := keeps_of_same rfl rfl
theorem keeps_setHold (p : Port) (h : Option Hold) : Keeps s (s.setHold p h) := keeps_of_same rfl rfl
theorem keeps_report (p : Port) (r : ReportKind) : Keeps s (s.report p r) := keeps_of_same rfl rfl
theorem keeps_noteReport (p : Port) (r : ReportKind) : Keeps s (s.noteReport p r) := keeps_of_same rfl rfl
theorem keeps_post (p : Port) (r : Result) : Keeps s (s.post p r) := keeps_modPort s p _
theorem keeps_refuse (p : Port) (r : Result) : Keeps s (s.refuse p r) := (keeps_post s p r).trans (keeps_report _ p _)
theorem keeps_setPhase (p : Port) (ph : Phase) : Keeps s (s.setPhase p ph) := keeps_modPort s p _

theorem keeps_pick (n : Nat) : Keeps s (s.pick n).2 := keeps_of_frame (s.pick_frame n) rfl rfl
theorem keeps_shuffle {α : Type} (l : List α) : Keeps s (s.shuffle l).2 := keeps_of_frame (s.shuffle_frame l) rfl rfl
theorem keeps_completeAll (c : Command) : Keeps s (s.completeAll c) := keeps_of_frame (s.completeAll_frame c) rfl rfl
theorem keeps_unripen (k : SlotIx) : Keeps s (s.unripen k) := keeps_of_same rfl rfl
theorem keeps_viewsGone (k : SlotIx) : Keeps s (s.viewsGone k) := keeps_of_frame (s.viewsGone_frame k) rfl rfl
theorem keeps_settle : Keeps s s.settle := keeps_of_frame s.settle_frame rfl rfl

theorem keeps_markDetaching (p : Port) (cause : DetachCause) : Keeps s (s.markDetaching p cause) :=
  keeps_of_frame (s.markDetaching_frame p cause) rfl rfl

/-! ### Freezing and the watch -/

theorem keeps_becomeFrozen : Keeps s s.becomeFrozen := keeps_of_frame s.becomeFrozen_frame rfl rfl
theorem keeps_callFreeze : Keeps s s.callFreeze := keeps_of_frame s.callFreeze_frame rfl rfl

theorem keeps_drainNext : Keeps s s.drainNext := by
  unfold State.drainNext
  refine keeps_ite (fun _ => keeps_becomeFrozen s) fun _ => ?_
  split
  · exact keeps_of_same rfl rfl
  · exact (keeps_completeAll _ _).from_same rfl rfl

theorem keeps_landingEnded : Keeps s s.landingEnded := by
  unfold State.landingEnded
  refine keeps_ite (fun _ => keeps_refl s) fun _ => ?_
  split
  · exact keeps_becomeFrozen s
  · split
    · exact keeps_drainNext s
    all_goals exact keeps_becomeFrozen s
  all_goals exact keeps_refl s

theorem keeps_offerAct (kind : ActKind) (detail : Bool) (k : SlotIx) (src : Source) :
    Keeps s (s.offerAct kind detail k src) :=
  keeps_of_frame (s.offerAct_frame kind detail k src) rfl rfl

theorem keeps_recordLanding (o : Offer) (detail : Bool) : Keeps s (s.recordLanding o detail) :=
  keeps_of_frame (s.recordLanding_frame o detail) rfl rfl

/-! ### Notes -/

theorem keeps_appendNote (p : Port) (n : Note) : Keeps s (s.appendNote p n) := by
  unfold State.appendNote appendTest
  by_cases hc : (s.noteUnit p).delivery = .closed
  · rw [if_pos hc]
    exact keeps_refl s
  rw [if_neg hc]
  by_cases hf : (coalesces n.reason (s.slot n.slot).config.kind && (s.noteUnit p).queue.any (sameMatter n)) = true
  · rw [if_pos hf]
    exact keeps_modNotes s p _ (noteQueueLaw_of_reasons (foldInto_reasons n _))
  rw [if_neg hf]
  cases hl : lostPending (s.noteUnit p).queue with
  | true => exact keeps_refl s
  | false =>
    have room (h : NoteQueueLaw (s.noteUnit p).queue) := noteQueueLaw_length_of_no_lost h hl
    by_cases hlen : Config.ordinaryLimit ≤ (s.noteUnit p).queue.length
    · rw [if_neg Bool.false_ne_true, if_pos hlen]
      exact (keeps_modNotes s p _ fun h => noteQueueLaw_snoc hl (room h) (.inl rfl)).trans (keeps_noteReport _ p _)
    · rw [if_neg Bool.false_ne_true, if_neg hlen]
      exact keeps_modNotes s p _ fun h => noteQueueLaw_snoc hl (room h) (.inr (by omega))

theorem keeps_appendEach (ps : PortSet) (n : Port → Note) : Keeps s (s.appendEach ps n) :=
  keeps_foldl (fun t p => keeps_ite (fun _ => keeps_appendNote t p _) fun _ => keeps_refl t) _ s

theorem keeps_tell (ps : PortSet) (r : Reason) (k : SlotIx) : Keeps s (s.tell ps r k) := keeps_appendEach s ps _

theorem keeps_tellDropped (src : Source) (k : SlotIx) : Keeps s (s.tellDropped src k) := by
  cases src with
  | port p => exact keeps_ite (fun _ => keeps_appendNote s p _) fun _ => keeps_refl s
  | exchange => exact keeps_refl s

theorem keeps_sealNotes (k : SlotIx) : Keeps s (s.sealNotes k) :=
  keeps_of_notes rfl fun p h => by
    rw [State.noteUnit, State.sealNotes, PerPort.get_ofFn]
    refine noteQueueLaw_of_reasons ?_ h
    rw [List.map_map]
    exact List.map_congr_left fun n _ => by dsimp only [Function.comp]; split <;> rfl

theorem keeps_flushNotes (p : Port) : Keeps s (s.flushNotes p) :=
  (keeps_modNotes s p _ fun _ => noteQueueLaw_nil).trans (keeps_mapSlots _ _)

theorem keeps_resetNotes (p : Port) : Keeps s (s.resetNotes p) :=
  (keeps_flushNotes s p).trans (keeps_modNotes _ p _ id)

theorem keeps_popNote (p : Port) : Keeps s (s.popNote p) := by
  unfold State.popNote
  split
  · exact keeps_modPort s p _
  · next n rest e =>
    refine (keeps_modPort s p _).trans (.trans (keeps_modNotes _ p _ fun h => ?_) (keeps_noteReport _ p _))
    exact noteQueueLaw_tail (e ▸ h : NoteQueueLaw (n :: rest))

/-! ### The Commit Unit -/

theorem keeps_beginLanding (o : Offer) : Keeps s (s.beginLanding o) := keeps_of_same rfl rfl

theorem keeps_setParked (k : SlotIx) (o : Option Offer) : Keeps s (s.setParked k o) := keeps_modSlot s k _

/-- A landing keeps the limits where leaving its place and staying there do. -/
theorem keeps_tryLanding (o : Offer) (detail : Bool) {gone stays : State → State}
    (hg : Keeps s (gone (s.recordLanding o detail))) (hs : Keeps s (stays (s.recordLanding o detail))) :
    Keeps s (s.tryLanding o detail gone stays) := by
  unfold State.tryLanding
  split
  · exact hg.trans (keeps_beginLanding _ o)
  · exact (hg.trans (keeps_beginLanding _ o)).trans (keeps_callFreeze _)
  · exact hs.trans (keeps_becomeFrozen _)

theorem keeps_commitOnEmpty (k : SlotIx) : Keeps s (s.commitOnEmpty k) :=
  keeps_of_frame (s.commitOnEmpty_frame k) rfl rfl

theorem keeps_park (o : Offer) : Keeps s (s.park o) := keeps_modSlot s o.slot _

/-- The head entry leaves the queue or stays there, marked. -/
theorem keeps_takeHead {o : Offer} {rest : List Offer} (e : s.queue = o :: rest) : Keeps s (s.takeHead o rest) := by
  have goes {t : State} (h : t.queue = s.queue) : Keeps t { t with queue := rest } :=
    keeps_of_queue_sublist rfl (by rw [h, e]; exact List.sublist_cons_self o rest)
  have stays {t : State} (h : t.queue = s.queue) : Keeps t { t with queue := o.marked :: rest } :=
    keeps_of_sources rfl (by rw [h, e]; exact List.Sublist.refl _)
  have records := keeps_recordLanding s o false
  have same := congrArg State.queue (s.recordLanding_frame o false)
  exact keeps_ite (fun _ => keeps_tryLanding s o false (records.trans (goes same)) (records.trans (stays same)))
    fun _ => (goes rfl).trans (keeps_park _ o)

theorem keeps_takeDue (o : Offer) (rest : List Offer) : Keeps s (s.takeDue o rest) :=
  keeps_tryLanding s o true ((keeps_recordLanding s o true).trans (keeps_of_same rfl rfl))
    ((keeps_recordLanding s o true).trans (keeps_of_same rfl rfl))

theorem keeps_takeRipe (k : SlotIx) : Keeps s (s.takeRipe k) := by
  unfold State.takeRipe
  split
  · exact keeps_unripen s k
  · next o _ =>
    refine keeps_tryLanding s o true ?_ ?_
    · exact (keeps_recordLanding s o true).trans ((keeps_setParked _ k _).trans (keeps_unripen _ k))
    · exact (keeps_recordLanding s o true).trans (keeps_setParked _ k _)

theorem keeps_takeDrain (k : SlotIx) : Keeps s (s.takeDrain k) := by
  unfold State.takeDrain
  refine keeps_ite (fun _ => keeps_takeRipe s k) fun _ => ?_
  dsimp only
  split
  · exact (keeps_drainNext s).trans (keeps_takeRipe _ _)
  all_goals exact keeps_drainNext s

theorem keeps_takeStep (i : Item) : Keeps s (s.takeStep i) := by
  cases i with
  | ripe k => exact keeps_ite (fun _ => keeps_takeRipe s k) fun _ => keeps_becomeFrozen s
  | head n =>
    unfold State.takeStep
    dsimp only
    split
    · next o rest e =>
      refine keeps_ite (fun _ => keeps_ite (fun _ => keeps_takeHead s e) fun _ => ?_) fun _ => keeps_becomeFrozen s
      exact (keeps_takeHead s e).trans (keeps_becomeFrozen _)
    · exact keeps_becomeFrozen s

theorem keeps_takeNext : Keeps s s.takeNext := by
  unfold State.takeNext
  refine keeps_ite (fun _ => keeps_refl s) fun _ => ?_
  split
  · split
    · exact keeps_takeDue s _ _
    · split
      · next e => exact keeps_takeHead s e
      · exact keeps_refl s
  · split
    · exact keeps_takeStep s _
    · exact keeps_takeDrain s _
    · exact keeps_refl s
  all_goals exact keeps_refl s

theorem keeps_completeRetirement (k : SlotIx) : Keeps s (s.completeRetirement k) :=
  (keeps_tell s _ _ _).trans <| (keeps_sealNotes _ k).trans <| (keeps_modSlot _ k _).trans <| keeps_viewsGone _ k

theorem keeps_testRetirement (k : SlotIx) : Keeps s (s.testRetirement k) :=
  keeps_ite (fun _ => keeps_completeRetirement s k) fun _ => keeps_refl s

theorem keeps_withdraw (p : Port) : Keeps s (s.withdraw p) := keeps_of_queue_sublist rfl List.filter_sublist

theorem keeps_discardPublications (p : Port) : Keeps s (s.discardPublications p) :=
  keeps_of_queue_sublist rfl List.filter_sublist

/-! ### Holds and views -/

theorem keeps_holdLeft (k : SlotIx) : Keeps s (s.holdLeft k) :=
  keeps_ite (fun _ => (keeps_commitOnEmpty s k).trans (keeps_testRetirement _ k)) fun _ => keeps_refl s

theorem keeps_endHold (p : Port) : Keeps s (s.endHold p) := by
  unfold State.endHold
  split
  · exact keeps_refl s
  · exact (keeps_setHold s p none).trans (keeps_holdLeft _ _)

theorem keeps_reclaimDue (k : SlotIx) : Keeps s (s.reclaimDue k) := by
  unfold State.reclaimDue
  split
  · exact keeps_of_same rfl rfl
  · exact keeps_refl s

theorem keeps_capture (p : Port) (k : SlotIx) : Keeps s (s.capture p k) := keeps_of_same rfl rfl

theorem keeps_grantView (p : Port) (k : SlotIx) : Keeps s (s.grantView p k) :=
  (keeps_endHold s p).trans <| (keeps_capture _ p k).trans <| (keeps_reclaimDue _ k).trans <| (keeps_unripen _ k).trans <|
    (keeps_post _ p _).trans <| keeps_offerAct _ _ _ _ _

theorem keeps_refreshView (p : Port) (k : SlotIx) : Keeps s (s.refreshView p k) :=
  (keeps_capture s p k).trans <| (keeps_post _ p _).trans <| keeps_offerAct _ _ _ _ _

theorem keeps_takeView (p : Port) (n : Byte) : Keeps s (takeView p n s) := by
  unfold takeView
  split
  · exact keeps_refuse s p _
  · exact keeps_ite (fun _ => keeps_refreshView s p _) fun _ =>
      keeps_ite (fun _ => keeps_setPhase s p _) fun _ => keeps_grantView s p _

theorem keeps_grantWaiting (p : Port) : Keeps s (s.grantWaiting p) := by
  unfold State.grantWaiting
  split
  · exact keeps_ite (fun _ => keeps_refl s) fun _ => keeps_grantView s p _
  · exact keeps_ite (fun _ => keeps_refl s) fun _ => keeps_refuse s p _
  all_goals exact keeps_refl s

theorem keeps_takeRelease (p : Port) : Keeps s (takeRelease p s) := by
  unfold takeRelease
  split
  · exact keeps_refuse s p _
  · exact (keeps_endHold s p).trans (keeps_post _ p _)

theorem keeps_expireHold (p : Port) : Keeps s (expireHold p s) := by
  unfold expireHold
  split
  · exact keeps_refl s
  · refine keeps_ite (fun _ => ?_) fun _ => keeps_refl s
    exact (keeps_endHold s p).trans ((keeps_appendNote _ p _).trans (keeps_report _ p _))

theorem keeps_takeNote (p : Port) : Keeps s (takeNote p s) := by
  refine keeps_ite (fun _ => (keeps_pick s 2).trans ?_) fun _ => (keeps_popNote s p).trans (keeps_endHold _ p)
  exact keeps_ite (fun _ => (keeps_popNote _ p).trans (keeps_endHold _ p)) fun _ =>
    (keeps_endHold _ p).trans (keeps_popNote _ p)

end Calm
end Sys2Proof.Publication
end

section
namespace Sys2Proof.Publication
open Sys2Proof Sys2Proof.Machine

/-! ### Acceptance: the checks leave room for the entry (R29, R32, R91) -/

section Acceptance
variable (s : State)

theorem checkPublish_room {p : Port} {n : Byte} {k : SlotIx} (h : s.checkPublish p n = .ok k) :
    s.entriesOf p < Config.portLimit ∧ s.queue.length < Config.queueLimit := by
  unfold State.checkPublish at h
  split at h
  · cases h
  · dsimp only at h
    split_ifs at h with _ _ hp hq
    exact ⟨Nat.lt_of_not_le hp, Nat.lt_of_not_le hq⟩

/-- The one check of REQUEST that guards the queue. -/
theorem checkRequest_room {p : Port} {n : Byte} {k : SlotIx} (h : s.checkRequest p n = .ok k)
    (ha : (s.slot k).config.answer = .autoAnswer) (hr : (s.slot k).requesters.isEmpty = true) :
    s.queue.length < Config.queueLimit := by
  unfold State.checkRequest at h
  split at h
  · cases h
  · split at h
    · cases h
    · dsimp only at h
      split_ifs at h with _ _ _ _ hq
      cases h
      exact Nat.lt_of_not_le fun hle => hq ⟨ha, hr, hle⟩

theorem entriesOf_appendEntry (o : Offer) (p : Port) :
    (s.appendEntry o).entriesOf p = s.entriesOf p + if o.source = .port p then 1 else 0 := by
  unfold State.entriesOf State.appendEntry
  rw [List.filter_append, List.length_append]
  by_cases h : o.source = .port p
  · simp [h]
  · simp [h]

theorem keeps_appendEntry {o : Offer} (hq : s.queue.length < Config.queueLimit)
    (hp : ∀ p, o.source = .port p → s.entriesOf p < Config.portLimit) : Keeps s (s.appendEntry o) := by
  refine ⟨fun h => ⟨by simpa [State.appendEntry] using hq, fun p => ?_⟩, id⟩
  rw [entriesOf_appendEntry]
  split
  · next e => exact hp p e
  · exact h.2 p

theorem keeps_takePublish (p : Port) (n : Byte) : Keeps s (takePublish p n s) := by
  unfold takePublish
  split
  · exact keeps_refuse s p _
  · next k e =>
    obtain ⟨hp, hq⟩ := checkPublish_room s e
    refine (keeps_appendEntry s hq fun q hs => ?_).trans ((keeps_report _ p _).trans (keeps_post _ p _))
    cases hs
    exact hp

theorem keeps_beginRound (p : Port) (k : SlotIx)
    (h : (s.slot k).config.answer = .autoAnswer → s.queue.length < Config.queueLimit) : Keeps s (s.beginRound p k) := by
  unfold State.beginRound
  dsimp only
  split
  · exact (keeps_modSlot s k _).trans (keeps_appendNote _ _ _)
  · next ha => exact (keeps_modSlot s k _).trans (keeps_appendEntry _ (h ha) fun _ e => nomatch e)

theorem keeps_takeRequest (p : Port) (n : Byte) : Keeps s (takeRequest p n s) := by
  unfold takeRequest
  split
  · exact keeps_refuse s p _
  · next k e =>
    refine keeps_ite (fun hr => ?_) fun _ => ?_
    · exact (keeps_beginRound s p k fun ha => checkRequest_room s e ha hr).trans <|
        (keeps_post _ p _).trans <| keeps_offerAct _ _ _ _ _
    · exact (keeps_modSlot s k _).trans <| (keeps_post _ p _).trans <| keeps_offerAct _ _ _ _ _

end Acceptance

/-! ### Requests, the parts of a landing, the time base -/

section Blocks
variable (s : State)

theorem keeps_timeOutRequesters (k : SlotIx) : Keeps s (s.timeOutRequesters k) :=
  (keeps_tell s _ _ _).trans (keeps_modSlot _ k _)

theorem keeps_expireDeadline (k : SlotIx) : Keeps s (expireDeadline k s) := by
  unfold expireDeadline
  split
  · exact keeps_refl s
  · exact keeps_ite (fun _ => keeps_ite (fun _ => (keeps_timeOutRequesters s k).trans (keeps_report _ _ _))
      fun _ => keeps_timeOutRequesters s k) fun _ => keeps_refl s

theorem keeps_serveLanding : Keeps s (serveLanding s) := by
  unfold serveLanding
  split
  · exact keeps_refl s
  · split
    · exact keeps_refl s
    · exact (keeps_modSlot s _ _).trans (keeps_modFlight _ _)

theorem keeps_notifyLanding : Keeps s (notifyLanding s) := by
  unfold notifyLanding
  split
  · exact keeps_refl s
  · split
    · exact keeps_refl s
    · refine keeps_ite (fun _ => keeps_refl s) fun _ => ?_
      exact (keeps_modSlot s _ _).trans ((keeps_appendEach _ _ _).trans (keeps_modFlight _ _))

theorem keeps_timeLanding : Keeps s (timeLanding s) := by
  unfold timeLanding
  split
  · exact keeps_refl s
  · exact keeps_ite (fun _ => keeps_refl s) fun _ => (keeps_modSlot s _ _).trans (keeps_modFlight _ _)

theorem keeps_landingOver (k : SlotIx) : Keeps s (s.landingOver k) := by
  have ended (n : Nat) : Keeps s { s with freeCount := n }.landingEnded := (keeps_landingEnded _).from_same rfl rfl
  rcases s.landingOver_cases k with e | ⟨n, e | ⟨p, e | e⟩⟩ <;> rw [e]
  · exact keeps_landingEnded s
  · exact (ended n).trans (keeps_completeRetirement _ k)
  · exact (ended n).trans (keeps_grantWaiting _ p)
  · exact ((keeps_grantWaiting { s with freeCount := n } p).trans (keeps_landingEnded _)).from_same rfl rfl

theorem keeps_endLanding : Keeps s (endLanding s) := by
  unfold endLanding
  split
  · exact keeps_refl s
  · refine keeps_ite (fun _ => ?_) fun _ => keeps_refl s
    exact (keeps_landingOver _ _).from_same rfl rfl

theorem keeps_tick : Keeps s (tick s) := by
  unfold tick
  exact keeps_ite (fun _ => keeps_ite (fun _ => keeps_ite (fun _ => keeps_refl s) fun _ => keeps_of_same rfl rfl)
    fun _ => keeps_of_same rfl rfl) fun _ => keeps_refl s

theorem keeps_takeSetTime (p : Port) : Keeps s (takeSetTime p s) :=
  (keeps_post _ p _).from_same rfl rfl

theorem keeps_expireFreshness (k : SlotIx) : Keeps s (expireFreshness k s) := by
  unfold expireFreshness
  split
  · exact keeps_refl s
  · exact keeps_ite (fun _ => (keeps_modSlot s k _).trans (keeps_tell _ _ _ _)) fun _ => keeps_refl s

/-! ### The Slot Table's commands -/

theorem keeps_ifToken (p : Port) {f : State → State} (h : Keeps s (f s)) : Keeps s (s.ifToken p f) :=
  keeps_ite (fun _ => h) fun _ => keeps_refuse s p _

theorem keeps_takeConfigure (p : Port) (n : Byte) : Keeps s (takeConfigure p n s) := by
  unfold takeConfigure
  split
  · exact keeps_refuse s p _
  · exact (keeps_modSlot s _ _).trans <| (keeps_post _ p _).trans <| keeps_offerAct _ _ _ _ _

theorem keeps_dropEntries (k : SlotIx) : Keeps s (s.dropEntries k) :=
  (keeps_of_queue_sublist rfl List.filter_sublist : Keeps s { s with queue := s.queue.filter fun o => o.slot != k }).trans <|
    keeps_foldl (fun t (o : Offer) => keeps_tellDropped t o.source k) _ _

theorem keeps_dropParked (k : SlotIx) : Keeps s (s.dropParked k) := by
  unfold State.dropParked
  dsimp only
  refine (keeps_reclaimDue s k).trans ?_
  split
  · exact keeps_refl _
  · exact (keeps_setParked _ k none).trans ((keeps_unripen _ k).trans (keeps_tellDropped _ _ k))

theorem keeps_retireSteps (k : SlotIx) : Keeps s (s.retireSteps k) := by
  unfold State.retireSteps
  exact (keeps_modSlot s k _).trans <| (keeps_dropEntries _ k).trans <| (keeps_dropParked _ k).trans <|
    (keeps_timeOutRequesters _ k).trans <| keeps_modSlot _ k _

theorem keeps_takeRetire (p : Port) (n : Byte) : Keeps s (takeRetire p n s) := by
  unfold takeRetire
  split
  · exact keeps_refuse s p _
  · exact (keeps_retireSteps s _).trans <| (keeps_testRetirement _ _).trans <| (keeps_post _ p _).trans <|
      keeps_offerAct _ _ _ _ _

/-! ### The Health Unit -/

theorem keeps_waitToDetach (ps : List Port) : Keeps s (s.waitToDetach ps) := by
  cases ps with
  | nil => exact keeps_refl s
  | cons p ps => exact keeps_of_same rfl rfl

theorem keeps_freeToken (p : Port) : Keeps s (s.freeToken p) :=
  keeps_ite (fun _ => keeps_of_same rfl rfl) fun _ => keeps_refl s

theorem keeps_detachRequests (p : Port) : Keeps s (s.detachRequests p) := by
  unfold State.detachRequests
  dsimp only
  exact ((keeps_shuffle _ _).trans (keeps_foldl (fun u k => keeps_timeOutRequesters u k) _ _)).from_same rfl rfl

theorem keeps_detachNotes (p : Port) : Keeps s (s.detachNotes p) := (keeps_flushNotes s p).trans (keeps_modNotes _ p _ id)

theorem keeps_orphan (k : SlotIx) : Keeps s (s.orphan k) := (keeps_modSlot s k _).trans (keeps_tell _ _ _ _)

theorem keeps_expelOutside (p : Port) : Keeps s (s.expelOutside p) :=
  keeps_ite (fun _ => keeps_modHealth s p _) fun _ => keeps_refl s

theorem keeps_finishExpels (p : Port) : Keeps s (s.finishExpels p) := by
  refine keeps_foldl (fun t q => ?_) _ s
  split
  · refine keeps_ite (fun _ => ?_) fun _ => keeps_refl t
    exact (keeps_ite (fun _ => keeps_refl t) fun _ => keeps_expelOutside t p).trans (keeps_post _ q _)
  all_goals exact keeps_refl t

theorem keeps_detachOrphan (p : Port) : Keeps s (s.detachOrphan p) :=
  (keeps_shuffle s _).trans <| (keeps_foldl keeps_orphan _ _).trans <| (keeps_modHealth _ p _).trans (keeps_finishExpels _ p)

theorem keeps_detachStep (p : Port) (st : DetachStep) : Keeps s (s.detachStep p st) := by
  cases st with
  | token => exact keeps_freeToken s p
  | hold => exact keeps_endHold s p
  | publications => exact keeps_discardPublications s p
  | requests => exact keeps_detachRequests s p
  | notes => exact keeps_detachNotes s p
  | orphan => exact keeps_detachOrphan s p

theorem keeps_runDetach (p : Port) (upTo : DetachStep) (fuel : Nat) (st : DetachStep) :
    Keeps s (s.runDetach p upTo fuel st) := by
  induction fuel generalizing s st with
  | zero => exact keeps_of_same rfl rfl
  | succ fuel ih =>
    unfold State.runDetach
    refine keeps_ite (fun _ => keeps_of_same rfl rfl) fun _ => ?_
    have steps := (keeps_detachStep s p st).trans (keeps_settle _)
    split
    · exact steps.trans (keeps_of_same rfl rfl)
    · exact steps.trans (ih _ _)

theorem keeps_runDetachment (p : Port) (upTo : DetachStep) : Keeps s (runDetachment p upTo s) := by
  unfold runDetachment
  split
  · exact keeps_ite (fun _ => keeps_runDetach s p upTo 6 _) fun _ => keeps_refl s
  · split
    · refine keeps_ite (fun _ => ?_) fun _ => keeps_refl s
      exact (keeps_runDetach _ p upTo 6 _).from_same rfl rfl
    · exact keeps_refl s

theorem keeps_takeExpel (p : Port) : Keeps s (takeExpel p s) := by
  unfold takeExpel
  split
  · exact keeps_refuse s p _
  · next q _ =>
    have begins := (keeps_setPhase s p (.expelling q true)).trans
      ((keeps_markDetaching _ q .expelled).trans (keeps_waitToDetach _ [q]))
    have ends := (keeps_expelOutside s q).trans (keeps_post _ p .done)
    refine keeps_ite (fun _ => keeps_refuse s p _) fun _ => keeps_ite (fun _ => keeps_setPhase s p _) fun _ => ?_
    split
    · exact begins
    · exact begins
    · exact ends
    · exact ends

theorem keeps_takeRejoinPolicy (p : Port) : Keeps s (takeRejoinPolicy p s) := by
  unfold takeRejoinPolicy
  dsimp only
  split
  · exact keeps_refuse s p _
  · exact keeps_ite (fun _ => keeps_refuse s p _) fun _ => (keeps_modHealth s _ _).trans (keeps_post _ p _)

theorem keeps_takeRejoin (p : Port) : Keeps s (takeRejoin p s) := by
  unfold takeRejoin
  split
  · exact (keeps_modHealth s p _).trans (keeps_post _ p _)
  all_goals exact keeps_refuse s p _

theorem keeps_reportActive (p : Port) : Keeps s (s.reportActive p) :=
  (keeps_modNotes s p (fun m => { m with delivery := .delivering }) id).trans (keeps_of_same rfl rfl)

theorem keeps_endQuiet (p : Port) : Keeps s (endQuiet p s) := by
  unfold endQuiet
  dsimp only
  split
  · exact keeps_refl s
  · refine keeps_ite (fun _ => keeps_ite (fun _ => ?_) fun _ => keeps_modHealth s p _) fun _ => keeps_refl s
    exact (keeps_modHealth s p _).trans (keeps_reportActive _ p)

/-! ### The commands of the Control Unit, the View Unit and the Watch Unit -/

theorem keeps_takeClaim (p : Port) : Keeps s (takeClaim p s) := by
  unfold takeClaim
  refine keeps_ite (fun _ => keeps_refuse s p _) fun _ => ?_
  split
  · exact keeps_ite (fun _ => keeps_post s p _) fun _ => keeps_refuse s p _
  · exact (keeps_post _ p _).from_same rfl rfl

theorem keeps_takeYield (p : Port) : Keeps s (takeYield p s) :=
  keeps_ite (fun _ => (keeps_post _ p _).from_same rfl rfl)
    fun _ => keeps_refuse s p _

theorem keeps_takeRestart : Keeps s (takeRestart s) := keeps_of_same rfl rfl

theorem keeps_takeFreeze (p : Port) : Keeps s (takeFreeze p s) := by
  unfold takeFreeze
  split
  · exact keeps_callFreeze s
  · exact keeps_callFreeze s
  · exact keeps_refl s
  · exact keeps_post s p _
  · exact keeps_refl s

theorem keeps_takeStepCommand (p : Port) : Keeps s (takeStepCommand p s) := by
  unfold takeStepCommand
  split
  · split
    · exact keeps_of_same rfl rfl
    · split
      · exact keeps_of_same rfl rfl
      · exact keeps_refuse s p _
  all_goals exact keeps_refuse s p _

theorem keeps_takeResume (p : Port) : Keeps s (takeResume p s) := by
  unfold takeResume
  split
  · split
    · exact keeps_of_same rfl rfl
    · exact (keeps_post _ p _).from_same rfl rfl
  all_goals exact keeps_refuse s p _

theorem keeps_takeInspect (p : Port) : Keeps s (takeInspect p s) := by
  unfold takeInspect
  refine keeps_ite (fun _ => keeps_refuse s p _) fun _ => ?_
  split
  · exact keeps_refuse s p _
  · split
    · exact keeps_refuse s p _
    · exact (keeps_modPort s p _).trans (keeps_post _ p _)

theorem keeps_takeCancelHead (p : Port) : Keeps s (takeCancelHead p s) := by
  unfold takeCancelHead
  refine keeps_ite (fun _ => keeps_refuse s p _) fun _ => ?_
  split
  · exact keeps_refuse s p _
  · next o rest e =>
    have drops : Keeps s { s with queue := rest } :=
      keeps_of_queue_sublist rfl (by rw [e]; exact List.sublist_cons_self o rest)
    refine drops.trans (.trans ?_ (keeps_post _ p _))
    exact keeps_ite (fun _ => keeps_timeOutRequesters _ _) fun _ => keeps_tellDropped _ _ _

theorem keeps_takeHoldTimeout (p : Port) : Keeps s (takeHoldTimeout p s) := by
  unfold takeHoldTimeout
  exact keeps_ite (fun _ => keeps_refuse s p _) fun _ => (keeps_post _ p _).from_same rfl rfl

theorem keeps_takeArm (p : Port) : Keeps s (takeArm p s) := by
  unfold takeArm
  dsimp only
  split
  · exact keeps_refuse s p _
  · exact (keeps_post _ p _).from_same rfl rfl

theorem keeps_takeDisarm (p : Port) : Keeps s (takeDisarm p s) :=
  (keeps_post _ p _).from_same rfl rfl

theorem keeps_takeReadCapture (p : Port) : Keeps s (takeReadCapture p s) := by
  unfold takeReadCapture
  split
  · exact keeps_refuse s p _
  · exact (keeps_modPort s p _).trans (keeps_post _ p _)

/-! ### The command unit and the resets -/

theorem keeps_resetViewAndNotes (p : Port) : Keeps s (s.resetViewAndNotes p) := by
  refine keeps_ite (fun _ => (keeps_pick s 2).trans ?_) fun _ => (keeps_endHold s p).trans (keeps_resetNotes _ p)
  exact keeps_ite (fun _ => (keeps_endHold _ p).trans (keeps_resetNotes _ p)) fun _ =>
    (keeps_resetNotes _ p).trans (keeps_endHold _ p)

theorem keeps_resetPort (p : Port) (busy : Option Busy) : Keeps s (s.resetPort p busy) :=
  (keeps_modPort s p _).trans <| (keeps_resetViewAndNotes _ p).trans <| (keeps_withdraw _ p).trans <|
    (keeps_mapSlots _ _).trans <| (keeps_freeToken _ p).trans (keeps_report _ p _)

theorem keeps_takeCommand (c : Command) (p : Port) (n : Byte) : Keeps s (takeCommand c p n s) := by
  cases c with
  | publish => exact keeps_takePublish s p n
  | view => exact keeps_takeView s p n
  | release => exact keeps_takeRelease s p
  | request => exact keeps_takeRequest s p n
  | claimToken => exact keeps_takeClaim s p
  | yieldToken => exact keeps_takeYield s p
  | configureSlot => exact keeps_ifToken s p (keeps_takeConfigure s p n)
  | retireSlot => exact keeps_ifToken s p (keeps_takeRetire s p n)
  | setHoldTimeout => exact keeps_ifToken s p (keeps_takeHoldTimeout s p)
  | setTime => exact keeps_ifToken s p (keeps_takeSetTime s p)
  | setRejoinPolicy => exact keeps_ifToken s p (keeps_takeRejoinPolicy s p)
  | expel => exact keeps_ifToken s p (keeps_takeExpel s p)
  | restart => exact keeps_ifToken s p (keeps_takeRestart s)
  | freeze => exact keeps_ifToken s p (keeps_takeFreeze s p)
  | resume => exact keeps_ifToken s p (keeps_takeResume s p)
  | step => exact keeps_ifToken s p (keeps_takeStepCommand s p)
  | inspect => exact keeps_ifToken s p (keeps_takeInspect s p)
  | cancelHead => exact keeps_ifToken s p (keeps_takeCancelHead s p)
  | armWatch => exact keeps_ifToken s p (keeps_takeArm s p)
  | disarmWatch => exact keeps_ifToken s p (keeps_takeDisarm s p)
  | readCapture => exact keeps_ifToken s p (keeps_takeReadCapture s p)
  | rejoin => exact keeps_takeRejoin s p
  | resetPort => exact keeps_refl s

theorem keeps_overrun (p : Port) : Keeps s (s.overrun p) := (keeps_modPort s p _).trans (keeps_report _ p _)

theorem keeps_writeCommand (p : Port) (c : Command) (n : Byte) : Keeps s (s.writeCommand p c n) := by
  unfold State.writeCommand
  refine keeps_ite (fun _ => keeps_ite (fun _ => keeps_refl s) fun _ => keeps_resetPort s p _) fun _ =>
    keeps_ite (fun _ => keeps_overrun s p) fun _ => .trans (keeps_modPort s p _ : Keeps s (s.acceptWrite p c n)) ?_
  exact keeps_ite (fun _ => keeps_refuse _ p _) fun _ =>
    keeps_ite (fun _ => keeps_setPhase _ p _) fun _ => keeps_takeCommand _ c p n

theorem keeps_writeUndefined (p : Port) : Keeps s (s.writeUndefined p) :=
  keeps_ite (fun _ => keeps_overrun s p) fun _ => (keeps_modPort s p _).trans (keeps_report _ p _)

theorem keeps_writeCommandWord (p : Port) (w : Word) : Keeps s (s.writeCommandWord p w) := by
  unfold State.writeCommandWord
  split
  · exact keeps_writeCommand s p _ _
  · exact keeps_writeUndefined s p

theorem keeps_writeFilter (p : Port) (n : Nat) (w : Word) : Keeps s (s.writeFilter p n w) := keeps_modNotes s p _ id

theorem keeps_writeStored (p : Port) (off : BitVec 6) (w : Word) : Keeps s (s.writeStored p off w) := by
  have ports (f : PortUnit → PortUnit) := keeps_modPort s p f
  unfold State.writeStored
  exact keeps_ite (fun _ => ports _) fun _ => keeps_ite (fun _ => ports _) fun _ => keeps_ite (fun _ => ports _) fun _ =>
    keeps_ite (fun _ => ports _) fun _ => keeps_ite (fun _ => ports _) fun _ => keeps_ite (fun _ => ports _) fun _ =>
    keeps_ite (fun _ => keeps_writeFilter s p _ w) fun _ => keeps_refl s

theorem keeps_finishResetPort (p : Port) : Keeps s (finishResetPort p s) :=
  keeps_ite (fun _ => keeps_post s p _) fun _ => keeps_refl s

/-! ### Restart and device reset -/

theorem keeps_completeExpels : Keeps s s.completeExpels := by
  refine keeps_foldl (fun t q => ?_) _ s
  split
  · exact keeps_post t q _
  all_goals exact keeps_refl t

/-- A state without entries and without notes is within the limits. -/
theorem keeps_of_empty {s t : State} (hq : t.queue = []) (hn : ∀ p, (t.noteUnit p).queue = []) : Keeps s t :=
  ⟨publicationLaw_of_sources (by rw [hq]; exact List.nil_sublist _), fun _ p => hn p ▸ noteQueueLaw_nil⟩

theorem keeps_beginRestart : Keeps s (beginRestart s) := by
  unfold beginRestart
  refine keeps_ite (fun _ => ?_) fun _ => keeps_refl s
  refine .trans (keeps_of_empty rfl fun p => ?_) <| (keeps_completeAll _ _).trans <| (keeps_completeAll _ _).trans <|
    (keeps_completeAll _ _).trans (keeps_completeExpels _)
  exact congrArg NoteUnit.queue (PerPort.get_ofFn _ p)

theorem keeps_release (p : Port) : Keeps s (s.release p) := by
  unfold State.release
  split
  · exact (keeps_setPhase s p _).trans (keeps_takeCommand _ _ p _)
  · exact keeps_refl s

theorem keeps_endRestart : Keeps s (endRestart s) := by
  unfold endRestart
  refine keeps_ite (fun _ => ?_) fun _ => keeps_refl s
  exact (keeps_of_same rfl rfl : Keeps s { s with restartMark := false, exchange := .running }).trans <|
    (keeps_completeAll _ _).trans <| (keeps_shuffle _ _).trans <|
    keeps_foldl (fun t p => (keeps_release t p).trans (keeps_settle _)) _ _

theorem keeps_deviceReset : Keeps s s.deviceReset :=
  keeps_of_empty rfl fun p => congrArg NoteUnit.queue (PerPort.get_fill NoteUnit.reset p)

/-! ### A step -/

theorem keeps_event {f : State → State} {t : State} (hf : ∀ u, Keeps u (f u)) (h : event f s = .next t) : Keeps s t := by
  cases h
  exact keeps_ite (fun _ => keeps_refl s) fun _ => (hf s).trans (keeps_settle _)

theorem keeps_cycle {p : Port} {f : State → State} {t : State} (hf : ∀ u, Keeps u (f u)) (h : cycle p f s = .next t) :
    Keeps s t :=
  keeps_event s (fun u => keeps_ite (fun _ => keeps_refl u) fun _ => hf u) h

theorem keeps_execPortReset {p : Port} {t : State} (h : execPortReset p s = .next t) : Keeps s t := by
  unfold execPortReset at h
  split at h
  · cases h
    exact keeps_of_same rfl rfl
  · exact (keeps_of_same rfl rfl : Keeps s { s with lineLow := s.lineLow.insert p }).trans
      (keeps_event _ (fun u => keeps_resetPort u p none) h)

/-- Each row of the opcode table keeps the limits. -/
theorem keeps_exec {i : Instr} {t : State} (h : exec i s = .next t) : Keeps s t := by
  cases i with
  | undefinedCommand p code n => exact keeps_cycle s (fun u => keeps_writeCommandWord u p _) h
  | registerWrite p off w =>
    exact keeps_cycle s (fun u => keeps_ite (fun _ => keeps_writeCommandWord u p w) fun _ => keeps_writeStored u p off w) h
  | attentionEnableWrite p w => exact keeps_cycle s (fun u => keeps_modPort u p _) h
  | resultRead p => exact keeps_cycle s (fun u => keeps_modPort u p _) h
  | timeLowRead p => exact keeps_cycle s (fun u => keeps_modPort u p _) h
  | noteTake p => exact keeps_cycle s (fun u => keeps_takeNote u p) h
  | deviceReset => cases h; exact keeps_deviceReset s
  | deviceResetRelease => cases h; exact keeps_of_same rfl rfl
  | portReset p => exact keeps_execPortReset s h
  | resetPortDone p => exact keeps_event s (fun u => keeps_finishResetPort u p) h
  | takeNextValue => exact keeps_event s keeps_takeNext h
  | landingService => exact keeps_event s keeps_serveLanding h
  | landingNotification => exact keeps_event s keeps_notifyLanding h
  | landingTimePart => exact keeps_event s keeps_timeLanding h
  | landingEnd => exact keeps_event s keeps_endLanding h
  | viewGrant p => exact keeps_event s (fun u => keeps_grantWaiting u p) h
  | holdExpiry p => exact keeps_event s (fun u => keeps_expireHold u p) h
  | deadlineExpiry k => exact keeps_event s (fun u => keeps_expireDeadline u k) h
  | freshnessExpiry k => exact keeps_event s (fun u => keeps_expireFreshness u k) h
  | quietIntervalEnd p => exact keeps_event s (fun u => keeps_endQuiet u p) h
  | detachment p upTo => exact keeps_event s (fun u => keeps_runDetachment u p upTo) h
  | restartBegin => exact keeps_event s keeps_beginRestart h
  | restartEnd => exact keeps_event s keeps_endRestart h
  | timeBaseAdvance => exact keeps_event s keeps_tick h
  | _ p n => exact keeps_cycle s (fun u => keeps_writeCommand u p _ n) h

theorem keeps_step {t : State} (h : step s = .next t) : Keeps s t := by
  unfold step at h
  split at h
  · cases h
    exact keeps_refl s
  · exact (keeps_exec _ h).from_same rfl rfl

end Blocks

/-- Settles O6: every operation of the part keeps both limits, and so does each row of the opcode table. -/
theorem stepKeepsQueueLaws : Obligations.StepKeepsQueueLaws := by
  intro s t h
  obtain ⟨publication, notes⟩ := keeps_step s h
  exact ⟨publication, notes⟩

end Sys2Proof.Publication
end

section
namespace Sys2Proof.Publication
open Sys2Proof Sys2Proof.Machine

/-! ### The Health Unit at the end of an event (R118, R119, R120) -/

section Reports
variable {s : State} {p : Port}

/-- One report that sets no detaching mark: the Health Unit takes it, and no detachment begins to wait. -/
theorem settle_report {k : ReportKind} (h : s.reports = [])
    (hm : ∀ q, ((s.takeReport ⟨p, k, false⟩).healthOf q).mark = (s.healthOf q).mark) :
    (s.report p k).settle = s.takeReport ⟨p, k, false⟩ := by
  have emptied : { s.report p k with reports := [] } = s := by rw [← h]; rfl
  rw [State.settle_one _ ⟨p, k, false⟩ (by simp [State.report, h])]
  dsimp only
  rw [emptied]
  exact State.waitToDetach_unmarked s _ fun q hq => hm q ▸ hq

theorem mark_modHealth (s : State) (p q : Port) {f : Health → Health} (hf : (f (s.healthOf p)).mark = (s.healthOf p).mark) :
    ((s.modHealth p f).healthOf q).mark = (s.healthOf q).mark := by
  rw [State.healthOf_modHealth]
  split
  · next e => rw [hf, e]
  · rfl

theorem inside_iff : s.inside p = true ↔ (s.healthOf p).state = .active ∨ (s.healthOf p).state = .degraded := by
  unfold State.inside
  cases (s.healthOf p).state <;> simp [HealthState.outside]

theorem settle_credit (h : s.reports = []) (hi : s.inside p = true) (hm : (s.healthOf p).mark = false) :
    (s.report p .credit).settle = s.rewarded p := by
  have out : (s.healthOf p).state.outside = false := by simpa [State.inside] using hi
  have takes : s.takeReport ⟨p, .credit, false⟩ = s.modHealth p Health.credited := by
    simp [State.takeReport, State.takeCredit, hm, out]
  rw [settle_report h (fun q => by rw [takes, mark_modHealth s p q rfl]), takes]
  rfl

theorem settle_penalty {n : Nat} (h : s.reports = []) (hi : s.inside p = true) (hm : (s.healthOf p).mark = false)
    (hb : s.bears p n) : (s.report p (.penalty n)).settle = s.fined p n := by
  have takes : s.takeReport ⟨p, .penalty n, false⟩ = s.modHealth p fun x => x.raised ((s.healthOf p).score + n) := by
    have score : (s.healthOf p).score + n ≤ Config.scoreMax := hb
    rcases inside_iff.mp hi with e | e <;> simp [State.takeReport, State.takePenalty, hm, e, score]
  have raised : (s.healthOf p).raised ((s.healthOf p).score + n) =
      { s.healthOf p with
        score := (s.healthOf p).score + n, warn := decide (96 ≤ (s.healthOf p).score + n)
        state := if 128 ≤ (s.healthOf p).score + n then .degraded else (s.healthOf p).state } := by
    rcases inside_iff.mp hi with e | e
    · simp only [Health.raised, e, true_and]
      rfl
    · simp only [Health.raised, e, reduceCtorEq, false_and, ite_self]
      rfl
  rw [settle_report h (fun q => by rw [takes, mark_modHealth s p q rfl]), takes, State.modHealth, raised]
  rfl

/-- A disturbance counts in REJOINING alone (R133). -/
theorem settle_disturbance (h : s.reports = []) (hi : s.inside p = true) : (s.report p .disturbance).settle = s := by
  have takes : s.takeReport ⟨p, .disturbance, false⟩ = s := by
    have : (s.healthOf p).state ≠ .rejoining := by rcases inside_iff.mp hi with e | e <;> simp [e]
    simp [State.takeReport, State.takeDisturbance, this]
  rw [settle_report h (fun q => by rw [takes]), takes]

end Reports

/-! ### The command unit (R171, R172) -/

section Commands
variable {s : State} {p : Port}

/-- The command unit passes the command of a ready port on to its block, and the block's reports are taken. -/
theorem cycle_command {c : Command} {n : Byte} (h : s.ready p) (hc : c ≠ .resetPort) :
    cycle p (fun t => t.writeCommand p c n) s = .next (takeCommand c p n (s.busyWith p c n .taken)).settle := by
  have ⟨⟨hreset, _⟩, _, _, _, _, hline⟩ := h
  rw [cycle_next hreset hline, State.writeCommand_ready h hc]

theorem port_busyWith (s : State) (p : Port) (c : Command) (n : Byte) (ph : Phase) :
    (s.busyWith p c n ph).port p =
      { s.port p with unit := { (s.port p).unit with busy := some ⟨c, n, ph⟩, done := false } } :=
  PerPort.get_set_self _ _ _

/-- The block posts the result of the command that the unit has passed to it. -/
theorem post_busyWith (s : State) (p : Port) (c : Command) (n : Byte) (r : Result) :
    (s.busyWith p c n .taken).post p r = s.answered p r :=
  (State.post_busy (s.busyWith_busy p c n .taken) r).trans (s.answered_busyWith p c n .taken r)

theorem settle_refuse_penalised {c : Command} {n : Byte} {r : Result} (h : s.ready p) (hb : s.bears p 4)
    (hr : r.penalised = true) : ((s.busyWith p c n .taken).refuse p r).settle = (s.answered p r).fined p 4 := by
  obtain ⟨⟨-, hrep⟩, -, hin, hmark, -⟩ := h
  rw [State.refuse, post_busyWith, if_pos hr]
  exact settle_penalty hrep hin hmark hb

theorem settle_refuse_plain {c : Command} {n : Byte} {r : Result} (h : s.ready p) (hr : r.penalised = false) :
    ((s.busyWith p c n .taken).refuse p r).settle = s.answered p r := by
  obtain ⟨⟨-, hrep⟩, -, hin, -⟩ := h
  rw [State.refuse, post_busyWith, if_neg (by simp [hr])]
  exact settle_disturbance hrep hin

end Commands

/-! ### PUBLISH (R8, R28 to R33) -/

section Publish
variable {s : State} {p : Port} {n : Byte} {k : SlotIx}

theorem checkSlot_of_taking (hk : k.val = n.toNat) (h : (s.slot k).state = .opened ∨ (s.slot k).state = .live) :
    s.checkSlot n = .ok k := by
  rcases h with h | h <;> simp [State.checkSlot, slotOf_some hk, h]

theorem checkSlot_of_unused (hk : k.val = n.toNat) (h : (s.slot k).state = .unused) : s.checkSlot n = .error .noSlot := by
  simp [State.checkSlot, slotOf_some hk, h]

theorem checkSlot_of_retiring (hk : k.val = n.toNat) (h : (s.slot k).state = .retiring) :
    s.checkSlot n = .error .retiring := by
  simp [State.checkSlot, slotOf_some hk, h]

theorem checkSlot_of_gt (h : 95 < n.toNat) : s.checkSlot n = .error .noSlot := by simp [State.checkSlot, slotOf_none h]

theorem checkPublish_of_checkSlot {r : Result} (h : s.checkSlot n = .error r) : s.checkPublish p n = .error r := by
  simp [State.checkPublish, h]

theorem checkPublish_busyWith (c : Command) (m : Byte) : (s.busyWith p c m .taken).checkPublish p n = s.checkPublish p n := by
  unfold State.checkPublish
  rw [port_busyWith]
  rfl

theorem newEntry_busyWith (c : Command) (m : Byte) : (s.busyWith p c m .taken).newEntry p k = s.newEntry p k := by
  unfold State.newEntry
  rw [port_busyWith]
  rfl

theorem trimData_get (n : BitVec 4) (d : Table 8 Word) (i : Fin 8) :
    (trimData n d).get i = if i.val < n.toNat then d.get i else 0#16 := by
  simp [Table.get, trimData]
  rfl

theorem isEmpty_eq_false_iff {x : PortSet} : x.isEmpty = false ↔ ∃ q, x.has q = true := by
  rw [← Bool.not_eq_true, PortSet.isEmpty_iff]
  simp

/-- A PUBLISH refused by a check (R29). -/
theorem exec_publish_refused {r : Result} (h : s.ready p) (e : s.checkPublish p n = .error r) :
    exec (.publish p n) s = .next ((s.busyWith p .publish n .taken).refuse p r).settle := by
  have takes : takeCommand .publish p n (s.busyWith p .publish n .taken) = (s.busyWith p .publish n .taken).refuse p r := by
    simp [takeCommand, takePublish, checkPublish_busyWith, e]
  exact takes ▸ cycle_command h (by decide)

theorem exec_publish_penalised {r : Result} (h : s.ready p) (hb : s.bears p 4) (e : s.checkPublish p n = .error r)
    (hr : r.penalised = true) : exec (.publish p n) s = .next ((s.answered p r).fined p 4) :=
  (exec_publish_refused h e).trans (congrArg _ (settle_refuse_penalised h hb hr))

theorem exec_publish_unpenalised {r : Result} (h : s.ready p) (e : s.checkPublish p n = .error r)
    (hr : r.penalised = false) : exec (.publish p n) s = .next (s.answered p r) :=
  (exec_publish_refused h e).trans (congrArg _ (settle_refuse_plain h hr))

/-- A PUBLISH that passes its checks (R30). -/
theorem exec_publish_accepted (h : s.ready p) (e : s.checkPublish p n = .ok k) :
    exec (.publish p n) s =
      .next { (s.answered p .done).rewarded p with
                queue := s.queue ++ [s.newEntry p k], nextOrder := s.nextOrder + 1 } := by
  have hready := h
  obtain ⟨⟨-, hrep⟩, -, hin, hmark, -⟩ := h
  have takes : takeCommand .publish p n (s.busyWith p .publish n .taken) =
      ({ s.answered p .done with queue := s.queue ++ [s.newEntry p k], nextOrder := s.nextOrder + 1 }).report p .credit := by
    simp only [takeCommand, takePublish, checkPublish_busyWith, e, newEntry_busyWith]
    exact post_busyWith (({ s with queue := s.queue ++ [s.newEntry p k], nextOrder := s.nextOrder + 1 } : State).report p
      .credit) p .publish n .done
  have settles : (takeCommand .publish p n (s.busyWith p .publish n .taken)).settle =
      { (s.answered p .done).rewarded p with queue := s.queue ++ [s.newEntry p k], nextOrder := s.nextOrder + 1 } :=
    takes ▸ settle_credit hrep hin hmark
  exact settles ▸ cycle_command hready (by decide)

/-- The checks of PUBLISH on an OPEN or LIVE slot of its owner, with a length that is in range. -/
theorem checkPublish_of_fitting (hk : k.val = n.toNat) (hs : (s.slot k).state = .opened ∨ (s.slot k).state = .live)
    (ho : (s.slot k).config.owner = p) (hle : (s.port p).composeLength.toNat ≤ (s.slot k).config.maxLength.toNat)
    (hz : (s.port p).composeLength ≠ 0#16 ∨ (s.slot k).config.kind = .event) :
    s.checkPublish p n =
      if 4 ≤ s.entriesOf p then .error .portLimit else if 8 ≤ s.queue.length then .error .queueFull else .ok k := by
  have fits : ¬((s.slot k).config.maxLength.toNat < (s.port p).composeLength.toNat ∨
      ((s.port p).composeLength = 0#16 ∧ (s.slot k).config.kind = .state)) := by
    rintro (hlt | ⟨h0, hkind⟩)
    · omega
    · exact hz.elim (fun hz => hz h0) fun hz => by simp [hkind] at hz
  simp [State.checkPublish, checkSlot_of_taking hk hs, ho, fits]
  rfl

end Publish

/-- Settles O12: the entry is `State.newEntry`, whose fields are those of R30 and R33. -/
theorem publishQueuesTheValue : Obligations.PublishQueuesTheValue := by
  intro s p n k hready hk hstate howner hlen hkind hport hqueue
  have ok : s.checkPublish p n = .ok k := by
    rw [checkPublish_of_fitting hk hstate howner hlen hkind, if_neg (by omega), if_neg (by omega)]
  have length : ((s.port p).composeLength.setWidth 4).toNat = (s.port p).composeLength.toNat := by
    have := (s.slot k).config.maxLength.isLt
    rw [BitVec.toNat_setWidth]
    omega
  refine ⟨s.newEntry p k, exec_publish_accepted hready ok, rfl, rfl, length, fun i => ?_, rfl, ?_, rfl⟩
  · exact (trimData_get _ _ i).trans (by rw [length])
  · exact by simp [State.newEntry, isEmpty_eq_false_iff]

/-- Settles O13: the first check that fails is the result of `State.checkPublish`. -/
theorem publishRefusals : Obligations.PublishRefusals := by
  intro s p n hready hbears
  refine ⟨fun hn => exec_publish_penalised hready hbears (checkPublish_of_checkSlot (checkSlot_of_gt hn)) rfl,
    fun k hk => ⟨fun hs => ?_, fun hs => ?_, fun hs => ⟨fun ho => ?_, fun ho => ⟨fun hl => ?_, fun hle hz => ?_⟩⟩⟩⟩
  · exact exec_publish_penalised hready hbears (checkPublish_of_checkSlot (checkSlot_of_unused hk hs)) rfl
  · exact exec_publish_unpenalised hready (checkPublish_of_checkSlot (checkSlot_of_retiring hk hs)) rfl
  · exact exec_publish_penalised hready hbears (by simp [State.checkPublish, checkSlot_of_taking hk hs, ho]) rfl
  · exact exec_publish_penalised hready hbears (by simp [State.checkPublish, checkSlot_of_taking hk hs, ho, hl]) rfl
  · have checks := checkPublish_of_fitting hk hs ho hle hz
    refine ⟨fun hp => ?_, fun hp hq => ?_, fun hp hq => ?_⟩
    · exact exec_publish_unpenalised hready (by rw [checks, if_pos hp]) rfl
    · exact exec_publish_unpenalised hready (by rw [checks, if_neg (by omega), if_pos hq]) rfl
    · have ok : s.checkPublish p n = .ok k := by rw [checks, if_neg (by omega), if_neg (by omega)]
      have unit : ((s.answered p .done).port p).unit = { (s.port p).unit with busy := none, result := .done, done := true } :=
        congrArg PortUnit.unit (PerPort.get_set_self _ _ _)
      exact ⟨_, exec_publish_accepted hready ok, List.length_append, congrArg CommandUnit.busy unit,
        congrArg CommandUnit.result unit⟩

end Sys2Proof.Publication
end

section
namespace Sys2Proof.Publication
open Sys2Proof Sys2Proof.Machine

/-! ### Becoming FROZEN (R45, R150, R151) -/

section Freezing
variable {s : State}

theorem dueToRipe_of_due_nil (h : s.due = []) : s.dueToRipe = s := by
  unfold State.dueToRipe
  rw [h]
  exact congrArg (fun due => { s with due := due }) h.symm

/-- The due values go back to their slots, and then the commands that wait for the freeze complete. -/
theorem becomeFrozen_eq :
    s.becomeFrozen = { s with exchange := .frozen, freezeMark := false, task := none }.dueToRipe.frozenNow := by
  generalize ht : { s with exchange := .frozen, freezeMark := false, task := none }.dueToRipe = t
  have due : t.due = [] := by rw [← ht, State.dueToRipe_frame]
  have frozen : { t with exchange := .frozen, freezeMark := false, task := none } = t := by
    rw [← ht, State.dueToRipe_frame]
  rw [← State.becomeFrozen_of_due_nil t due]
  unfold State.becomeFrozen
  dsimp only
  rw [ht, frozen, dueToRipe_of_due_nil due]

theorem ripen_of_ripe_nil {k : SlotIx} (h : s.ripe = []) : s.ripen k = { s with ripe := [k] } := by
  simp [State.ripen, h, insertBy]

/-- One due value goes back to its slot and is the one ripe value. -/
theorem becomeFrozen_of_due_singleton {o : Offer} (h : s.due = [o]) (hr : s.ripe = []) :
    s.becomeFrozen =
      { s with due := [], ripe := [o.slot]
               slots := s.slots.set o.slot { s.slot o.slot with parked := some o } }.frozenNow := by
  have back : { s with exchange := .frozen, freezeMark := false, task := none }.dueToRipe =
      { s with exchange := .frozen, freezeMark := false, task := none, due := [], ripe := [o.slot],
               slots := s.slots.set o.slot { s.slot o.slot with parked := some o } } := by
    unfold State.dueToRipe
    rw [h, List.foldl_cons, List.foldl_nil, ripen_of_ripe_nil (by exact hr)]
    rfl
  rw [becomeFrozen_eq, back]
  rfl

/-! ### Freezing with a landing in flight (R150, R164) -/

theorem callFreeze_of_running (hx : s.exchange = .running) (hf : s.flight.isSome = true) :
    s.callFreeze = { s with exchange := .freezing } := by
  simp [State.callFreeze, hx, hf]

theorem callFreeze_of_stepping (hx : s.exchange = .stepping) (hf : s.flight.isSome = true) :
    s.callFreeze = { s with freezeMark := true } := by
  unfold State.callFreeze
  rw [hx]
  dsimp only
  split
  · rw [if_pos hf]
  · rfl
  · rfl

end Freezing

/-! ### The watch and a landing (R36, R162, R163, R165) -/

section Watching
variable {s : State} {o : Offer}

theorem hits_iff_catches {kind : ActKind} {k : SlotIx} {src : Source} :
    s.watch.hits kind k src = true ↔ s.catches kind k src := by
  cases kind <;> simp [Watch.hits, Watch.watches, State.catches, and_assoc]

theorem recordMatch_landing (detail : Bool) (k : SlotIx) (src : Source) :
    s.recordMatch .landing detail k src = s.recorded .landing detail k src := by
  have count : s.watch.nextCount = if s.watch.matchCount = 65535#16 then 65535#16 else s.watch.matchCount + 1#16 := by
    unfold Watch.nextCount
    split
    · next h => rw [h]
    · rfl
  unfold State.recordMatch State.recorded
  simp only [count, lastOf, List.length_append, List.length_singleton]
  rfl

variable {detail : Bool} {gone stays : State → State}

theorem unwatched_eq_false (hp : o.passed = false) (hc : s.catches .landing o.slot o.source) :
    (o.passed || !s.watch.hits .landing o.slot o.source) = false := by
  simp [hp, hits_iff_catches.mpr hc]

theorem recordLanding_of_catches (hp : o.passed = false) (hc : s.catches .landing o.slot o.source) :
    s.recordLanding o detail = s.recorded .landing detail o.slot o.source := by
  rw [State.recordLanding, unwatched_eq_false hp hc, if_neg Bool.false_ne_true, recordMatch_landing]

theorem tryLanding_of_record (hp : o.passed = false) (hc : s.catches .landing o.slot o.source)
    (ha : s.watch.action = .record) :
    s.tryLanding o detail gone stays = (gone (s.recorded .landing detail o.slot o.source)).beginLanding o := by
  simp [State.tryLanding, recordLanding_of_catches hp hc, State.answerFor, unwatched_eq_false hp hc, ha]

theorem tryLanding_of_freezeAfter (hp : o.passed = false) (hc : s.catches .landing o.slot o.source)
    (ha : s.watch.action = .freezeAfter) :
    s.tryLanding o detail gone stays =
      ((gone (s.recorded .landing detail o.slot o.source)).beginLanding o).callFreeze := by
  simp [State.tryLanding, recordLanding_of_catches hp hc, State.answerFor, unwatched_eq_false hp hc, ha]

theorem tryLanding_of_freezeBefore (hp : o.passed = false) (hc : s.catches .landing o.slot o.source)
    (ha : s.watch.action = .freezeBefore) :
    s.tryLanding o detail gone stays = (stays (s.recorded .landing detail o.slot o.source)).becomeFrozen := by
  simp [State.tryLanding, recordLanding_of_catches hp hc, State.answerFor, unwatched_eq_false hp hc, ha]

end Watching

/-! ### Taking the next value (R34, R35, R153, R155) -/

section Taking
variable {s : State} {o : Offer} {rest : List Offer} {k : SlotIx}

theorem holdSet_isEmpty_eq_false (h : ∃ q, s.holding q k = true) : (s.holdSet k).isEmpty = false :=
  isEmpty_eq_false_iff.mpr (h.imp fun q hq => (s.holdSet_has k q).trans hq)

/-- May the Commit Unit take an item (R34)? -/
abbrev mayTake (s : State) : Prop := s.flight = none ∧ s.restartMark = false

theorem takeNext_of_due (h : mayTake s) (hx : s.exchange = .running) (hd : s.due = o :: rest) :
    s.takeNext = s.takeDue o rest := by
  simp [State.takeNext, h.1, h.2, hx, hd]

theorem takeNext_of_head (h : mayTake s) (hx : s.exchange = .running) (hd : s.due = []) (hq : s.queue = o :: rest) :
    s.takeNext = s.takeHead o rest := by
  simp [State.takeNext, h.1, h.2, hx, hd, hq]

theorem takeNext_of_nothing (h : mayTake s) (hx : s.exchange = .running) (hd : s.due = []) (hq : s.queue = []) :
    s.takeNext = s := by
  simp [State.takeNext, h.1, h.2, hx, hd, hq]

theorem takeNext_of_step {i : Item} (h : mayTake s) (hx : s.exchange = .stepping) (ht : s.task = some (.step i)) :
    s.takeNext = s.takeStep i := by
  simp [State.takeNext, h.1, h.2, hx, ht]

theorem takeNext_of_drain (h : mayTake s) (hx : s.exchange = .stepping) (ht : s.task = some (.drain k)) :
    s.takeNext = s.takeDrain k := by
  simp [State.takeNext, h.1, h.2, hx, ht]

theorem takeNext_of_may_not (h : s.flight.isSome = true ∨ s.restartMark = true ∨ s.exchange = .freezing ∨
    s.exchange = .frozen ∨ s.exchange = .restarting) : s.takeNext = s := by
  unfold State.takeNext
  split
  · rfl
  · next hn =>
    rcases h with h | h | h | h | h
    · simp [h] at hn
    · simp [h] at hn
    all_goals rw [h]

theorem exec_takeNextValue {t : State} (h : s.settled) (e : s.takeNext = t) (hr : t.reports = s.reports) :
    exec .takeNextValue s = .next t := by
  subst e
  exact (event_next h.1).trans (congrArg _ (State.settle_nil _ (hr.trans h.2)))

theorem takeHead_of_unheld (h : ∀ q, s.holding q o.slot = false) :
    s.takeHead o rest =
      s.tryLanding o false (fun t => { t with queue := rest }) fun t => { t with queue := o.marked :: rest } :=
  if_pos ((s.holdSet_isEmpty _).mpr h)

theorem takeHead_of_held (h : ∃ q, s.holding q o.slot = true) : s.takeHead o rest = { s with queue := rest }.park o :=
  if_neg (by simp [holdSet_isEmpty_eq_false h])

theorem takeRipe_of_parked (h : (s.slot k).parked = some o) :
    s.takeRipe k = s.tryLanding o true (fun t => (t.setParked k none).unripen k) fun t => t.setParked k (some o.marked) := by
  simp [State.takeRipe, h]

theorem takeStep_ripe (h : k ∈ s.ripe) : s.takeStep (.ripe k) = s.takeRipe k := if_pos h

theorem takeStep_ripe_gone (h : k ∉ s.ripe) : s.takeStep (.ripe k) = s.becomeFrozen := if_neg h

theorem takeStep_head_unheld (hq : s.queue = o :: rest) (h : ∀ q, s.holding q o.slot = false) :
    s.takeStep (.head o.order) = s.takeHead o rest := by
  simp [State.takeStep, hq, (s.holdSet_isEmpty _).mpr h]

theorem takeStep_head_held (hq : s.queue = o :: rest) (h : ∃ q, s.holding q o.slot = true) :
    s.takeStep (.head o.order) = ({ s with queue := rest }.park o).becomeFrozen := by
  simp [State.takeStep, hq, holdSet_isEmpty_eq_false h, takeHead_of_held h]

theorem takeStep_head_gone {n : Nat} (h : ∀ o rest, s.queue = o :: rest → o.order ≠ n) :
    s.takeStep (.head n) = s.becomeFrozen := by
  unfold State.takeStep
  dsimp only
  split
  · next o rest e => exact if_neg (h o rest e)
  · rfl

theorem takeDrain_of_mem (h : k ∈ s.ripe) : s.takeDrain k = s.takeRipe k := if_pos h

theorem takeDrain_of_drainNext {t : State} {j : SlotIx} (h : k ∉ s.ripe) (e : s.drainNext = t)
    (ht : t.task = some (.drain j)) : s.takeDrain k = t.takeRipe j := by
  simp [State.takeDrain, h, e, ht]

theorem takeDrain_of_drain_over {t : State} (h : k ∉ s.ripe) (e : s.drainNext = t) (ht : t.task = none) :
    s.takeDrain k = t := by
  simp [State.takeDrain, h, e, ht]

/-- A ripe value that a step or a drain is directed at is taken. -/
theorem takeNext_of_ripe (h : mayTake s) (hx : s.exchange = .stepping)
    (ht : s.task = some (.step (.ripe k)) ∨ s.task = some (.drain k)) (hk : k ∈ s.ripe) : s.takeNext = s.takeRipe k := by
  rcases ht with ht | ht
  · rw [takeNext_of_step h hx ht, takeStep_ripe hk]
  · rw [takeNext_of_drain h hx ht, takeDrain_of_mem hk]

end Taking

/-- Settles O14: one case for each answer of `State.takeNext` in RUNNING, and one where it takes nothing. -/
theorem nextValueLands : Obligations.NextValueLands := by
  intro s hs
  refine ⟨fun hx hf hm => ⟨fun o rest hd hw => ?_, fun o rest hd hq hn hw => ?_, fun hd hq => ?_⟩, fun h => ?_⟩
  · exact exec_takeNextValue hs ((takeNext_of_due ⟨hf, hm⟩ hx hd).trans (State.tryLanding_unwatched hw)) rfl
  · rw [exec_takeNextValue hs ((takeNext_of_head ⟨hf, hm⟩ hx hd hq).trans
      ((takeHead_of_unheld hn).trans (State.tryLanding_unwatched hw))) rfl]
  · exact exec_takeNextValue hs (takeNext_of_nothing ⟨hf, hm⟩ hx hd hq) rfl
  · exact exec_takeNextValue hs (takeNext_of_may_not h) rfl

/-- Settles O16: the head of a held slot goes to `State.park`, which also sets the missed set. -/
theorem heldValueIsParked : Obligations.HeldValueIsParked := by
  intro s o rest hs hx hf hm hd hq hh
  refine ⟨_, exec_takeNextValue hs ((takeNext_of_head ⟨hf, hm⟩ hx hd hq).trans (takeHead_of_held hh)) rfl, fun q => ?_⟩
  have slot : State.slot { s with queue := rest } o.slot = s.slot o.slot := rfl
  have subscribers : State.subscribers { s with queue := rest } o.slot = s.subscribers o.slot := rfl
  rw [slot, subscribers]
  cases (s.slot o.slot).parked <;> simp

/-- Settles O17: the item of the step or drain is taken off the ripe list or the queue, or it is gone. -/
theorem stepOrDrainTakesItsItem : Obligations.StepOrDrainTakesItsItem := by
  intro s hs hx hf hm hd
  have may : mayTake s := ⟨hf, hm⟩
  have frozen : s.becomeFrozen = s.frozenNow := State.becomeFrozen_of_due_nil _ hd
  refine ⟨fun k o ht hk hp ho hw => ?_, fun o rest ht hq hn hw => ?_, fun o rest ht hq hh hp => ?_,
    fun o rest ht hq hh hp => ?_, fun k j js o ht hk hz hr hp ho hw => ?_, fun k ht hk hz => ?_, fun k ht hk => ?_,
    fun n ht hn => ?_, fun k ht hr hz => ?_⟩
  · subst ho
    exact exec_takeNextValue hs ((takeNext_of_ripe may hx ht hk).trans
      ((takeRipe_of_parked hp).trans (State.tryLanding_unwatched hw))) rfl
  · exact exec_takeNextValue hs ((takeNext_of_step may hx ht).trans ((takeStep_head_unheld hq hn).trans
      ((takeHead_of_unheld hn).trans (State.tryLanding_unwatched hw)))) rfl
  · have parks : State.park { s with queue := rest } o =
        { s with queue := rest, slots := s.slots.set o.slot { s.slot o.slot with parked := some o } } := by
      have slot : State.slot { s with queue := rest } o.slot = s.slot o.slot := rfl
      simp [State.park, State.modSlot, slot, hp]
    have frozen := (congrArg State.becomeFrozen parks).trans (State.becomeFrozen_of_due_nil _ hd)
    exact exec_takeNextValue hs ((takeNext_of_step may hx ht).trans ((takeStep_head_held hq hh).trans frozen)) rfl
  · refine ⟨(s.slot o.slot).missed.union (s.subscribers o.slot), ?_, fun q => by simp⟩
    have parks : State.park { s with queue := rest } o =
        { s with queue := rest
                 slots := s.slots.set o.slot
                  { s.slot o.slot with
                    parked := some o, missed := (s.slot o.slot).missed.union (s.subscribers o.slot) } } := by
      have slot : State.slot { s with queue := rest } o.slot = s.slot o.slot := rfl
      simp [State.park, State.modSlot, slot, hp]
      rfl
    have frozen := (congrArg State.becomeFrozen parks).trans (State.becomeFrozen_of_due_nil _ hd)
    exact exec_takeNextValue hs ((takeNext_of_step may hx ht).trans ((takeStep_head_held hq hh).trans frozen)) rfl
  · subst ho
    have next : s.drainNext = { s with task := some (.drain o.slot) } := by simp [State.drainNext, hz, hr]
    have lands := (takeRipe_of_parked (s := { s with task := some (.drain o.slot) }) hp).trans (State.tryLanding_unwatched hw)
    exact exec_takeNextValue hs ((takeNext_of_drain may hx ht).trans ((takeDrain_of_drainNext hk next rfl).trans lands)) rfl
  · have ends : s.drainNext = s.frozenNow := (if_pos hz).trans frozen
    exact exec_takeNextValue hs ((takeNext_of_drain may hx ht).trans (takeDrain_of_drain_over hk ends rfl)) rfl
  · exact exec_takeNextValue hs ((takeNext_of_step may hx ht).trans ((takeStep_ripe_gone hk).trans frozen)) rfl
  · exact exec_takeNextValue hs ((takeNext_of_step may hx ht).trans ((takeStep_head_gone hn).trans frozen)) rfl
  · have ends : s.drainNext = { s with exchange := .running, task := none }.finished fun q => s.inHand q .resume := by
      simp only [State.drainNext, hz, hr, Bool.false_eq_true, if_false, State.completeAll_eq]
      rfl
    exact exec_takeNextValue hs ((takeNext_of_drain may hx ht).trans
      (takeDrain_of_drain_over (by simp [hr]) ends rfl)) rfl

end Sys2Proof.Publication
end

section
namespace Sys2Proof.Publication
open Sys2Proof Sys2Proof.Machine

/-! ### The last RELEASE of a slot (R43, R58) -/

section Release
variable {s X : State} {p : Port} {n : Byte} {h : Hold} {o : Offer} {k : SlotIx}

theorem commitOnEmpty_of_running (hp : (s.slot k).parked = some o) (hx : s.exchange = .running) (hf : s.flight = none)
    (hm : s.restartMark = false) :
    s.commitOnEmpty k =
      s.tryLanding o true (fun t => t.setParked k none) fun t => (t.setParked k (some o.marked)).ripen k := by
  simp [State.commitOnEmpty, hp, hx, hf, hm]

theorem commitOnEmpty_of_due (hp : (s.slot k).parked = some o)
    (hx : (s.exchange = .running ∧ (s.flight.isSome = true ∨ s.restartMark = true)) ∨ s.exchange = .freezing) :
    s.commitOnEmpty k = s.toDue k o := by
  rcases hx with ⟨hx, hw⟩ | hx
  · simp [State.commitOnEmpty, hp, hx, hw]
  · simp [State.commitOnEmpty, hp, hx]

theorem commitOnEmpty_of_frozen (hp : (s.slot k).parked = some o) (hx : s.exchange = .frozen ∨ s.exchange = .stepping) :
    s.commitOnEmpty k = s.ripen k := by
  rcases hx with hx | hx <;> simp [State.commitOnEmpty, hp, hx]

theorem holding_of_heldByOther (h : s.heldByOther p k = false) {q : Port} (hq : q ≠ p) : s.holding q k = false := by
  simpa [hq] using List.any_eq_false.mp h q (Port.mem_all q)

theorem holdSet_isEmpty_setHold_none (h : s.heldByOther p k = false) : ((s.setHold p none).holdSet k).isEmpty = true := by
  rw [State.holdSet_isEmpty]
  intro q
  by_cases hq : q = p
  · subst hq
    simp [State.holding]
  · have same : (s.setHold p none).hold q = s.hold q := (s.hold_setHold q p none).trans (if_neg hq)
    rw [State.holding, same]
    exact holding_of_heldByOther h hq

theorem testRetirement_of_state (h : (s.slot k).state ≠ .retiring) : s.testRetirement k = s := by
  simp [State.testRetirement, State.retirementDue, h]

/-- The state in which the hold of `p` has ended, and `p`'s RELEASE is with the View Unit. -/
abbrev released (s : State) (p : Port) (n : Byte) : State := (s.busyWith p .release n .taken).setHold p none

/-- What the last RELEASE comes to, by what the Commit Unit makes of the emptied hold set. -/
theorem exec_release (hready : s.ready p) (hh : s.hold p = some h) (ho : s.heldByOther p h.slot = false)
    (hX : (released s p n).commitOnEmpty h.slot = X.busyWith p .release n .taken)
    (hstate : (X.slot h.slot).state ≠ .retiring) (hr : X.reports = s.reports) :
    exec (.release p n) s = .next (X.answered p .done) := by
  have ⟨⟨_, hrep⟩, _⟩ := hready
  have hold : (s.busyWith p .release n .taken).hold p = some h := hh
  have empty : ((released s p n).holdSet h.slot).isEmpty = true :=
    holdSet_isEmpty_setHold_none (s := s.busyWith p .release n .taken) ho
  have ends : (s.busyWith p .release n .taken).endHold p = X.busyWith p .release n .taken := by
    rw [State.endHold, hold]
    dsimp only
    rw [State.holdLeft, if_pos empty, hX]
    exact testRetirement_of_state hstate
  have takes : takeCommand .release p n (s.busyWith p .release n .taken) = X.answered p .done := by
    simp only [takeCommand, takeRelease, hold, ends, post_busyWith]
  rw [← takes]
  exact (cycle_command hready (by decide)).trans (congrArg _ (State.settle_nil _ (by rw [takes]; exact hr.trans hrep)))

theorem land_state_ne_retiring {r : Slot} (h : r.state ≠ .retiring) : (r.land o).state ≠ .retiring := by
  unfold Slot.land
  cases e : r.state with
  | retiring => exact absurd e h
  | _ => simp

/-- The state of a slot after a landing on it from a state in which its pending value has gone. -/
theorem state_beginLanding_ne_retiring {slots : Table 96 Slot} {r : Slot} (hslots : X.slots = slots.set o.slot r)
    (h : r.state ≠ .retiring) : ((X.beginLanding o).slot o.slot).state ≠ .retiring := by
  have slot : X.slot o.slot = r := by rw [State.slot, hslots, Table.get_set_self]
  have lands : (X.beginLanding o).slot o.slot = (X.slot o.slot).land o := X.slot_modSlot_self o.slot _
  rw [lands, slot]
  exact land_state_ne_retiring h

/-- A RELEASE taken does not wait for a freeze. -/
theorem frozenNow_busyWith_release (hidle : (s.port p).unit.busy = none) :
    (s.busyWith p .release n .taken).frozenNow = s.frozenNow.busyWith p .release n .taken := by
  have waits (q : Port) : (s.busyWith p .release n .taken).waitsForFreeze q = s.waitsForFreeze q := by
    by_cases hq : q = p
    · subst hq
      simp [State.waitsForFreeze, State.inHand, port_busyWith, hidle]
    · have same : (s.busyWith p .release n .taken).port q = s.port q := PerPort.get_set_ne _ hq _
      simp [State.waitsForFreeze, State.inHand, same]
  have idle : s.waitsForFreeze p = false := by simp [State.waitsForFreeze, State.inHand, hidle]
  have port : s.frozenNow.port p = s.port p := by
    refine (PerPort.get_ofFn _ p).trans ?_
    rw [idle]
    rfl
  refine congrArg (fun ports => { s.frozenNow with ports := ports }) (PerPort.ext_get fun q => ?_)
  rw [PerPort.get_ofFn, waits, port]
  by_cases hq : q = p
  · subst hq
    rw [idle, PerPort.get_set_self]
    exact port_busyWith s q .release n .taken
  · have same : (s.busyWith p .release n .taken).port q = s.port q := PerPort.get_set_ne _ hq _
    rw [PerPort.get_set_ne _ hq]
    refine Eq.trans ?_ (PerPort.get_ofFn _ q).symm
    exact congrArg (fun u => if s.waitsForFreeze q then
      { u with unit := { u.unit with busy := none, result := .done, done := true } } else u) same

end Release

/-- Settles O26: the Commit Unit's answer to the emptied hold set, by the exchange state. -/
theorem lastReleaseSendsThePendingValue : Obligations.LastReleaseSendsThePendingValue := by
  intro s p n h o hready hh hother hp hslot hstate
  obtain ⟨k, expiry, view, ident⟩ := h
  dsimp only at hother hp hslot hstate ⊢
  subst hslot
  refine ⟨fun hx hf hm hw => ?_, fun hx => ?_, fun hx hk => ?_⟩
  · have commits := commitOnEmpty_of_running (s := released s p n) hp hx hf hm
    exact exec_release (X := { s with
        holds := s.holds.set p none
        slots := s.slots.set o.slot { s.slot o.slot with parked := none } }.beginLanding o) hready hh hother
      (commits.trans (State.tryLanding_unwatched (s := released s p n) hw))
      (state_beginLanding_ne_retiring (r := { s.slot o.slot with parked := none }) rfl hstate) rfl
  · obtain ⟨before, after, hdue, hins, hbefore, hafter⟩ := insertBy_split (fun x : Offer => x.order) o s.due
    refine ⟨before, after, hdue, hbefore, hafter, ?_⟩
    have slot : State.slot { s with slots := s.slots.set o.slot { s.slot o.slot with parked := none } } o.slot =
      { s.slot o.slot with parked := none } := Table.get_set_self _ _ _
    refine exec_release (X := { s with
        holds := s.holds.set p none
        slots := s.slots.set o.slot { s.slot o.slot with parked := none }
        due := before ++ o :: after }) hready hh hother ?_ ?_ rfl
    · rw [← hins]
      exact commitOnEmpty_of_due (s := released s p n) hp hx
    · exact (congrArg Slot.state slot).trans_ne hstate
  · obtain ⟨before, after, hripe, hins, hbefore, hafter⟩ := insertBy_split s.parkedOrder o.slot s.ripe
    have order : s.parkedOrder o.slot = o.order := by simp [State.parkedOrder, hp]
    rw [order] at hbefore hafter
    refine ⟨before, after, hripe, hbefore, hafter, ?_⟩
    refine exec_release (X := { s with holds := s.holds.set p none, ripe := before ++ o.slot :: after }) hready hh hother
      ?_ hstate rfl
    rw [← hins]
    exact (commitOnEmpty_of_frozen (s := released s p n) hp hx).trans (if_neg hk)

/-! ### Landings that match the watch (R36, R163, R165) -/

section Matches
variable {s : State} {o : Offer} {detail : Bool} {gone stays : State → State}

theorem takeDue_eq (s : State) (o : Offer) (rest : List Offer) :
    s.takeDue o rest =
      s.tryLanding o true (fun t => { t with due := rest }) fun t => { t with due := o.marked :: rest } := rfl

/-- What TAKE_NEXT_VALUE comes to with a value that matches the watch, by the watch's action. -/
theorem exec_takeNextValue_of_catches (hs : s.settled) (e : s.takeNext = s.tryLanding o detail gone stays)
    (hp : o.passed = false) (hc : s.catches .landing o.slot o.source)
    (hg : ∀ t, (gone t).reports = t.reports) (hst : ∀ t, (stays t).reports = t.reports) :
    let t := s.recorded .landing detail o.slot o.source
    (s.watch.action = .record → exec .takeNextValue s = .next ((gone t).beginLanding o)) ∧
    (s.watch.action = .freezeAfter → exec .takeNextValue s = .next ((gone t).beginLanding o).callFreeze) ∧
    (s.watch.action = .freezeBefore → exec .takeNextValue s = .next (stays t).becomeFrozen) := by
  refine ⟨fun ha => ?_, fun ha => ?_, fun ha => ?_⟩
  · exact exec_takeNextValue hs (e.trans (tryLanding_of_record hp hc ha)) (hg _)
  · exact exec_takeNextValue hs (e.trans (tryLanding_of_freezeAfter hp hc ha))
      ((congrArg State.reports (State.callFreeze_frame _)).trans (hg _))
  · exact exec_takeNextValue hs (e.trans (tryLanding_of_freezeBefore hp hc ha))
      ((congrArg State.reports (State.becomeFrozen_frame _)).trans (hst _))

end Matches

/-- Settles O46: for each place a value can land from, the answer of `State.tryLanding` to a match. -/
theorem watchMeetsALanding : Obligations.WatchMeetsALanding := by
  refine ⟨?_, ?_, ?_, ?_, ?_⟩
  · intro s o rest hs hx hf hm hd hq hn hp harmed hon hslot hsource
    obtain ⟨record, freezeAfter, freezeBefore⟩ := exec_takeNextValue_of_catches hs
      ((takeNext_of_head ⟨hf, hm⟩ hx hd hq).trans (takeHead_of_unheld hn)) hp ⟨harmed, hon, hslot, hsource⟩
      (fun _ => rfl) fun _ => rfl
    exact ⟨record, fun ha => (freezeAfter ha).trans (congrArg _ (callFreeze_of_running hx rfl)),
      fun ha => (freezeBefore ha).trans (congrArg _ (State.becomeFrozen_of_due_nil _ hd))⟩
  · intro s o rest hs hx hf hm hd ht hq hn hp hc
    obtain ⟨record, freezeAfter, freezeBefore⟩ := exec_takeNextValue_of_catches hs
      ((takeNext_of_step ⟨hf, hm⟩ hx ht).trans ((takeStep_head_unheld hq hn).trans (takeHead_of_unheld hn))) hp hc
      (fun _ => rfl) fun _ => rfl
    exact ⟨record, fun ha => (freezeAfter ha).trans (congrArg _ (callFreeze_of_stepping hx rfl)),
      fun ha => (freezeBefore ha).trans (congrArg _ (State.becomeFrozen_of_due_nil _ hd))⟩
  · intro s o hs hx hf hm hd hr hp hc
    obtain ⟨record, freezeAfter, freezeBefore⟩ := exec_takeNextValue_of_catches hs
      ((takeNext_of_due ⟨hf, hm⟩ hx hd).trans (takeDue_eq s o [])) hp hc (fun _ => rfl) fun _ => rfl
    exact ⟨record, fun ha => (freezeAfter ha).trans (congrArg _ (callFreeze_of_running hx rfl)),
      fun ha => (freezeBefore ha).trans (congrArg _ (becomeFrozen_of_due_singleton
        (s := { s.recorded .landing true o.slot o.source with due := [o.marked] }) (o := o.marked) rfl hr))⟩
  · intro s k o hs hx hf hm hd ht hk hparked hslot hp hc
    subst hslot
    obtain ⟨record, freezeAfter, freezeBefore⟩ := exec_takeNextValue_of_catches hs
      ((takeNext_of_ripe ⟨hf, hm⟩ hx ht hk).trans (takeRipe_of_parked hparked)) hp hc (fun _ => rfl) fun _ => rfl
    exact ⟨record, fun ha => (freezeAfter ha).trans (congrArg _ (callFreeze_of_stepping hx rfl)),
      fun ha => (freezeBefore ha).trans (congrArg _ (State.becomeFrozen_of_due_nil _ hd))⟩
  · intro s p n h o hready hh hother hparked hslot hstate hx hf hm hd hr hp hc
    obtain ⟨k, expiry, view, ident⟩ := h
    dsimp only at hother hparked hslot hstate ⊢
    subst hslot
    have commits := commitOnEmpty_of_running (s := released s p n) hparked hx hf hm
    have catches : (released s p n).catches .landing o.slot o.source := hc
    have ⟨_, hidle, _⟩ := hready
    let landed : State := { State.recorded { s with holds := s.holds.set p none } .landing true o.slot o.source with
      slots := s.slots.set o.slot { s.slot o.slot with parked := none } }.beginLanding o
    have taking : (landed.slot o.slot).state ≠ .retiring :=
      state_beginLanding_ne_retiring (r := { s.slot o.slot with parked := none })
        (X := { s with slots := s.slots.set o.slot { s.slot o.slot with parked := none } }) rfl hstate
    refine ⟨fun ha => ?_, fun ha => ?_, fun ha => ?_⟩
    · exact exec_release (X := landed) hready hh hother (commits.trans (tryLanding_of_record hp catches ha)) taking rfl
    · let freezing : State := { landed with exchange := .freezing }
      have freezes : ((((released s p n).recorded .landing true o.slot o.source).setParked o.slot none).beginLanding
          o).callFreeze = freezing.busyWith p .release n .taken := callFreeze_of_running hx rfl
      exact exec_release (X := freezing) hready hh hother
        (commits.trans ((tryLanding_of_freezeAfter hp catches ha).trans freezes)) taking rfl
    · let stopped : State := { State.recorded { s with holds := s.holds.set p none } .landing true o.slot o.source with
        ripe := [o.slot], slots := s.slots.set o.slot { s.slot o.slot with parked := some o.marked } }
      have ripens : (((released s p n).recorded .landing true o.slot o.source).setParked o.slot (some o.marked)).ripen o.slot =
          stopped.busyWith p .release n .taken :=
        ripen_of_ripe_nil (s := ((released s p n).recorded .landing true o.slot o.source).setParked o.slot (some o.marked)) hr
      have freezes : (stopped.busyWith p .release n .taken).becomeFrozen = stopped.frozenNow.busyWith p .release n .taken :=
        (State.becomeFrozen_of_due_nil (stopped.busyWith p .release n .taken) hd).trans (frozenNow_busyWith_release hidle)
      have slot : stopped.frozenNow.slot o.slot = { s.slot o.slot with parked := some o.marked } := Table.get_set_self _ _ _
      exact exec_release (X := stopped.frozenNow) hready hh hother
        (commits.trans ((tryLanding_of_freezeBefore hp catches ha).trans ((congrArg _ ripens).trans freezes)))
        ((congrArg Slot.state slot).trans_ne hstate) rfl

/-! ### The due values of a FREEZING exchange (R45, R151) -/

section DueValues

theorem insertBy_perm {α : Type} (key : α → Nat) (x : α) (l : List α) : (insertBy key x l).Perm (x :: l) := by
  obtain ⟨before, after, hl, hins, -, -⟩ := insertBy_split key x l
  rw [hins, hl]
  exact List.perm_middle

theorem insertBy_pairwise {α : Type} (key : α → Nat) (x : α) {l : List α} (h : l.Pairwise fun a b => key a ≤ key b) :
    (insertBy key x l).Pairwise fun a b => key a ≤ key b := by
  induction l with
  | nil => exact List.pairwise_singleton _ x
  | cons y ys ih =>
    obtain ⟨hy, hys⟩ := List.pairwise_cons.mp h
    unfold insertBy
    split
    · next hle =>
      refine List.pairwise_cons.mpr ⟨fun z hz => ?_, ih hys⟩
      rcases (mem_insertBy key x z ys).mp hz with rfl | hz
      · exact hle
      · exact hy z hz
    · next hlt =>
      refine List.pairwise_cons.mpr ⟨fun z hz => ?_, h⟩
      rcases List.mem_cons.mp hz with rfl | hz
      · omega
      · exact (Nat.le_of_not_le hlt).trans (hy z hz)

/-- A due value goes back to its slot as the pending value, and is ripe (R45). -/
def backToSlot (s : State) (o : Offer) : State :=
  (s.modSlot o.slot fun r => { r with parked := some o }).ripen o.slot

theorem dueToRipe_eq (s : State) : s.dueToRipe = s.due.foldl backToSlot { s with due := [] } := rfl

/-- The ripe list rises in acceptance order and holds each slot once (R45). -/
def RipeInOrder (s : State) : Prop := s.ripe.Nodup ∧ s.ripe.Pairwise fun j k => s.parkedOrder j ≤ s.parkedOrder k

variable {s : State} {o : Offer} {k : SlotIx}

theorem slot_backToSlot (s : State) (o : Offer) (k : SlotIx) :
    (backToSlot s o).slot k = if k = o.slot then { s.slot o.slot with parked := some o } else s.slot k := by
  have slots : (backToSlot s o).slots = (s.modSlot o.slot fun r => { r with parked := some o }).slots :=
    (congrArg State.slots (State.ripen_frame _ _)).trans rfl
  exact (congrArg (fun t => t.get k) slots).trans (s.slot_modSlot k o.slot _)

theorem ripe_backToSlot (h : o.slot ∉ s.ripe) :
    (backToSlot s o).ripe = insertBy (backToSlot s o).parkedOrder o.slot s.ripe := by
  have order : (backToSlot s o).parkedOrder = (s.modSlot o.slot fun r => { r with parked := some o }).parkedOrder :=
    (congrArg State.parkedOrder (State.ripen_frame _ _)).trans rfl
  rw [order]
  exact congrArg State.ripe (if_neg h)

theorem ripeInOrder_backToSlot (h : RipeInOrder s) (ho : o.slot ∉ s.ripe) : RipeInOrder (backToSlot s o) := by
  obtain ⟨hnodup, hsorted⟩ := h
  have order {j : SlotIx} (hj : j ∈ s.ripe) : (backToSlot s o).parkedOrder j = s.parkedOrder j := by
    have hne : j ≠ o.slot := fun e => ho (e ▸ hj)
    rw [State.parkedOrder, slot_backToSlot, if_neg hne]
    rfl
  rw [RipeInOrder, ripe_backToSlot ho]
  refine ⟨(insertBy_perm _ _ _).nodup_iff.mpr (List.nodup_cons.mpr ⟨ho, hnodup⟩), insertBy_pairwise _ _ ?_⟩
  exact hsorted.imp_of_mem fun hj hk hle => by rwa [order hj, order hk]

/-- Due values of different slots, none of them ripe, go back one after another. -/
theorem foldl_backToSlot {l : List Offer} (hl : (l.map fun o => o.slot).Nodup) (hs : ∀ o ∈ l, o.slot ∉ s.ripe)
    (h : RipeInOrder s) :
    RipeInOrder (l.foldl backToSlot s) ∧
      (∀ k, k ∈ (l.foldl backToSlot s).ripe ↔ k ∈ s.ripe ∨ ∃ o ∈ l, o.slot = k) ∧
      (∀ o ∈ l, (l.foldl backToSlot s).slot o.slot = { s.slot o.slot with parked := some o }) ∧
      ∀ k, (∀ o ∈ l, o.slot ≠ k) → (l.foldl backToSlot s).slot k = s.slot k := by
  induction l generalizing s with
  | nil => exact ⟨h, by simp, by simp, fun _ _ => rfl⟩
  | cons o os ih =>
    obtain ⟨hnew, hos⟩ := List.nodup_cons.mp hl
    have ho := hs o (List.mem_cons_self ..)
    have other {x : Offer} (hx : x ∈ os) : x.slot ≠ o.slot := fun e => hnew (List.mem_map.mpr ⟨x, hx, e⟩)
    have ripe (k : SlotIx) : k ∈ (backToSlot s o).ripe ↔ k = o.slot ∨ k ∈ s.ripe := State.mem_ripen _ k o.slot
    have rest : ∀ x ∈ os, x.slot ∉ (backToSlot s o).ripe := fun x hx => by
      rw [ripe]
      exact fun h => h.elim (other hx) (hs x (List.mem_cons_of_mem _ hx))
    obtain ⟨hord, hmem, hin, hout⟩ := ih hos rest (ripeInOrder_backToSlot h ho)
    rw [List.foldl_cons]
    refine ⟨hord, fun k => ?_, fun x hx => ?_, fun k hk => ?_⟩
    · rw [hmem, ripe, List.exists_mem_cons_iff]
      tauto
    · rcases List.mem_cons.mp hx with rfl | hx
      · rw [hout _ fun y hy => other hy, slot_backToSlot, if_pos rfl]
      · rw [hin x hx, slot_backToSlot, if_neg (other hx)]
    · obtain ⟨hko, hkos⟩ := List.forall_mem_cons.mp hk
      rw [hout k hkos, slot_backToSlot, if_neg (Ne.symm hko)]

theorem landingEnded_of_freezing (hf : s.flight = none) (hx : s.exchange = .freezing) (hm : s.restartMark = false) :
    s.landingEnded = s.becomeFrozen := by
  simp [State.landingEnded, hf, hx, hm]

theorem exec_landingEnd_freezing {l : Landing} (hreset : s.inReset = false) (hrep : s.reports = []) (hf : s.flight = some l)
    (hserved : l.served.isSome = true) (hnotified : l.notified = true) (htimed : l.timed = true)
    (hstate : (s.slot l.offer.slot).state ≠ .retiring) (hx : s.exchange = .freezing) (hm : s.restartMark = false) :
    exec .landingEnd s = .next { s with flight := none }.becomeFrozen := by
  have undue : State.retirementDue { s with flight := none } l.offer.slot = false := by
    have slot : State.slot { s with flight := none } l.offer.slot = s.slot l.offer.slot := rfl
    simp [State.retirementDue, slot, hstate]
  have ends : endLanding s = { s with flight := none }.becomeFrozen := by
    have finished : (l.served.isSome && l.notified && l.timed) = true := by simp [hserved, hnotified, htimed]
    rw [endLanding, hf]
    dsimp only
    rw [if_pos finished, State.landingOver, if_neg (by rw [undue]; exact Bool.false_ne_true)]
    exact landingEnded_of_freezing rfl hx hm
  have reports := congrArg State.reports (State.becomeFrozen_frame { s with flight := none })
  exact (event_next hreset).trans (by rw [ends, State.settle_nil _ (reports.trans hrep)])

end DueValues

/-- Settles O21: the due values go back one after another, and completing the waiting commands moves no slot. -/
theorem dueValuesBecomeRipe : Obligations.DueValuesBecomeRipe := by
  intro s l hlaw hreset hf hserved hnotified htimed hstate hx hm
  obtain ⟨⟨-, -, -, -, hrep⟩, -, -, -, hnodup, -, -, hripe, -⟩ := hlaw
  have ripe : s.ripe = [] := by
    by_contra hne
    rcases hripe hne with e | e <;> rw [e] at hx <;> cases hx
  let t : State := { s with flight := none, exchange := .frozen, freezeMark := false, task := none, due := [] }
  obtain ⟨⟨hnd, hsorted⟩, hmem, hin, hout⟩ := foldl_backToSlot (s := t) hnodup (by simp [t, ripe])
    (by simp [RipeInOrder, t, ripe])
  have frozen : { s with flight := none }.becomeFrozen = (s.due.foldl backToSlot t).frozenNow := by
    rw [becomeFrozen_eq, dueToRipe_eq]
  have frame := State.becomeFrozen_frame { s with flight := none }
  refine ⟨_, exec_landingEnd_freezing hreset hrep hf hserved hnotified htimed hstate hx hm, congrArg State.exchange frame,
    congrArg State.flight frame, congrArg State.due frame, ?_⟩
  rw [frozen]
  exact ⟨fun k => (hmem k).trans (by simp [t, ripe]), hnd, List.pairwise_map.mpr hsorted, hin, hout⟩

end Sys2Proof.Publication
end

section
namespace Sys2Proof.Publication
open Sys2Proof Sys2Proof.Machine

/-! ### Notes that find room (R75) -/

section Room
variable {s : State} {p : Port} {n : Note} {k : SlotIx}

/-- A note that coalesces with none is placed where there is room. -/
theorem appendNote_of_room (hc : ∀ kind, coalesces n.reason kind = false) (hr : s.roomFor p = true) :
    s.appendNote p n = s.modNotes p fun m => { m with queue := m.queue ++ [n] } := by
  simp only [State.roomFor, Bool.and_eq_true, beq_iff_eq, decide_eq_true_eq, List.all_eq_true, bne_iff_ne] at hr
  obtain ⟨⟨hdelivers, hordinary⟩, hlen⟩ := hr
  have noLost : lostPending (s.noteUnit p).queue = false := lostPending_eq_false.mpr hordinary
  have place : ¬Config.ordinaryLimit ≤ (s.noteUnit p).queue.length := Nat.not_le.mpr hlen
  simp [State.appendNote, appendTest, hdelivers, hc, noLost, place]

/-- The Notification Unit's record of `q` with `q`'s note at the tail of its queue, where `q` is told. -/
def toldUnit (s : State) (ps : PortSet) (f : Port → Note) (q : Port) : NoteUnit :=
  if ps.has q then { s.noteUnit q with queue := (s.noteUnit q).queue ++ [f q] } else s.noteUnit q

theorem appendEach_of_room {ps : PortSet} {f : Port → Note} (hc : ∀ q kind, coalesces (f q).reason kind = false)
    (hr : ∀ q, ps.has q = true → s.roomFor q = true) : s.appendEach ps f = s.noted (fun q => ps.has q) f := by
  have appends (t : State) (q : Port) (hq : t.noteUnit q = s.noteUnit q) :
      (if ps.has q then t.appendNote q (f q) else t) = { t with notes := t.notes.set q (toldUnit s ps f q) } := by
    unfold toldUnit
    by_cases h : ps.has q = true
    · have room : t.roomFor q = true := by
        rw [State.roomFor, hq]
        exact hr q h
      rw [if_pos h, if_pos h, appendNote_of_room (hc q) room, State.modNotes, hq]
    · rw [if_neg h, if_neg h, ← hq, State.noteUnit, PerPort.set_get_self]
  unfold State.appendEach Port.all
  rw [List.foldl_cons, List.foldl_cons, List.foldl_cons, List.foldl_cons, List.foldl_nil, appends s .a rfl,
    appends _ .b (by rfl), appends _ .c (by rfl), appends _ .d (by rfl)]
  rfl

/-- Requesters that all have room are timed out (R98). -/
theorem timeOutRequesters_of_room (hr : ∀ q, (s.slot k).requesters.has q = true → s.roomFor q = true) :
    s.timeOutRequesters k =
      { s.noted (fun q => (s.slot k).requesters.has q) (fun _ => s.noteOf .requestTimeout k) with
        slots := s.slots.set k { s.slot k with requesters := PortSet.empty, deadline := none } } := by
  rw [State.timeOutRequesters, State.tell, appendEach_of_room (fun _ _ => rfl) hr]
  rfl

theorem modNotes_append_eq_noted :
    (s.modNotes p fun m => { m with queue := m.queue ++ [n] }) = s.noted (fun q => q == p) fun _ => n := by
  refine congrArg (fun notes => { s with notes := notes }) (PerPort.ext_get fun q => ?_)
  rw [PerPort.get_set, PerPort.get_ofFn]
  by_cases h : q = p
  · subst h
    simp
  · simp [h]
    rfl

end Room

/-! ### The deadline of a round (R98) -/

section Deadline
variable {s : State} {k : SlotIx} {d : Time}

/-- A value of the slot's owner with the requester snapshot flag (R33). -/
def Answers (s : State) (k : SlotIx) (o : Offer) : Prop :=
  o.slot = k ∧ o.snapshot = true ∧ o.source = .port (s.slot k).config.owner

theorem answerPresent_iff : s.answerPresent k = true ↔
    (∃ o ∈ s.queue ++ s.due, Answers s k o) ∨ (∃ o, (s.slot k).parked = some o ∧ Answers s k o) ∨
      ∃ l, s.flight = some l ∧ Answers s k l.offer := by
  simp only [State.answerPresent, Bool.or_eq_true, List.any_eq_true, Option.any_eq_true, Bool.and_eq_true, beq_iff_eq, Answers,
    List.mem_append, or_and_right, exists_or, and_assoc, or_assoc]

theorem timeRuns_iff : s.timeRuns = true ↔ s.exchange = .running ∨ s.exchange = .freezing := by
  simp [State.timeRuns]

theorem reached_self : s.reached s.time = true := by simp [State.reached]

theorem reached_of_ahead {e : Nat} (h0 : 0 < e) (he : e < 2 ^ 31) : s.reached (s.time + BitVec.ofNat 32 e) = false := by
  have msb : (s.time - (s.time + BitVec.ofNat 32 e)).msb = true := by
    rw [BitVec.msb_eq_decide, decide_eq_true_eq, BitVec.toNat_sub, BitVec.toNat_add, BitVec.toNat_ofNat]
    omega
  rw [State.reached, msb]
  rfl

theorem expireDeadline_of_waiting (hd : (s.slot k).deadline = some d) (h : (s.timeRuns && s.reached d) = false) :
    expireDeadline k s = s := by
  simp [expireDeadline, hd, h]

theorem expireDeadline_of_due (hd : (s.slot k).deadline = some d) (hx : s.exchange = .running ∨ s.exchange = .freezing)
    (ht : s.time = d) :
    expireDeadline k s =
      if (s.slot k).config.answer = .ownerAnswers ∧ s.answerPresent k = false then
        (s.timeOutRequesters k).report (s.slot k).config.owner (.penalty Config.deadlinePenalty)
      else s.timeOutRequesters k := by
  subst ht
  simp [expireDeadline, hd, timeRuns_iff.mpr hx, reached_self]

theorem exec_deadlineExpiry {t : State} (hs : s.settled) (e : (expireDeadline k s).settle = t) :
    exec (.deadlineExpiry k) s = .next t := (event_next hs.1).trans (congrArg _ e)

theorem exec_deadlineExpiry_of_waiting (hs : s.settled) (hd : (s.slot k).deadline = some d)
    (h : (s.timeRuns && s.reached d) = false) : exec (.deadlineExpiry k) s = .next s :=
  exec_deadlineExpiry hs (by rw [expireDeadline_of_waiting hd h, State.settle_nil s hs.2])

end Deadline

/-- Settles O33: the requesters are timed out, and the report on the owner is the one report of the event. -/
theorem deadlineExpires : Obligations.DeadlineExpires := by
  intro s k d hs hd
  refine ⟨fun hx ht hroom => ⟨fun ha => ?_, fun ha hno hin hmark hbears => ?_⟩, fun hx => ?_, fun e h0 he hde => ?_⟩
  · have noReport : ¬((s.slot k).config.answer = .ownerAnswers ∧ s.answerPresent k = false) := by
      rintro ⟨howner, habsent⟩
      rcases ha with hauto | hpresent
      · rw [howner] at hauto
        cases hauto
      · rw [answerPresent_iff.mpr hpresent] at habsent
        cases habsent
    refine exec_deadlineExpiry hs ?_
    rw [expireDeadline_of_due hd hx ht, if_neg noReport, timeOutRequesters_of_room hroom]
    exact State.settle_nil _ hs.2
  · have absent : s.answerPresent k = false := by
      rw [← Bool.not_eq_true, answerPresent_iff]
      exact hno
    refine exec_deadlineExpiry hs ?_
    rw [expireDeadline_of_due hd hx ht, if_pos ⟨ha, absent⟩, timeOutRequesters_of_room hroom]
    exact settle_penalty hs.2 hin hmark hbears
  · have stopped : s.timeRuns = false := by
      rw [← Bool.not_eq_true, timeRuns_iff]
      rcases hx with hx | hx | hx <;> simp [hx]
    exact exec_deadlineExpiry_of_waiting hs hd (by rw [stopped, Bool.false_and])
  · subst hde
    exact exec_deadlineExpiry_of_waiting hs hd (by rw [reached_of_ahead h0 he, Bool.and_false])

/-! ### CANCEL_HEAD (R49, R158) -/

section CancelHead
variable {s : State} {p q : Port} {n : Byte} {o : Offer} {rest : List Offer}

theorem takeCommand_cancelHead (ht : s.token = some p) :
    takeCommand .cancelHead p n (s.busyWith p .cancelHead n .taken) = takeCancelHead p (s.busyWith p .cancelHead n .taken) :=
  if_pos ht

theorem takeCancelHead_of_not_frozen (h : s.exchange ≠ .frozen) : takeCancelHead p s = s.refuse p .notFrozen := if_pos h

theorem takeCancelHead_of_empty (hx : s.exchange = .frozen) (hq : s.queue = []) :
    takeCancelHead p s = s.refuse p .nothingQueued := by
  simp [takeCancelHead, hx, hq]

theorem takeCancelHead_of_port (hx : s.exchange = .frozen) (hq : s.queue = o :: rest) (ho : o.source = .port q) :
    takeCancelHead p s = (State.tellDropped { s with queue := rest } o.source o.slot).post p .done := by
  simp [takeCancelHead, hx, hq, Offer.isEcho, ho]

theorem takeCancelHead_of_echo (hx : s.exchange = .frozen) (hq : s.queue = o :: rest) (ho : o.source = .exchange) :
    takeCancelHead p s = (State.timeOutRequesters { s with queue := rest } o.slot).post p .done := by
  simp [takeCancelHead, hx, hq, Offer.isEcho, ho]

theorem tellDropped_of_room {k : SlotIx} (hin : s.inside q = true) (hr : s.roomFor q = true) :
    s.tellDropped (.port q) k = s.noted (fun x => x == q) fun _ => s.noteOf .dropped k := by
  rw [State.tellDropped, if_pos hin, appendNote_of_room (fun _ => rfl) hr, modNotes_append_eq_noted]

theorem exec_cancelHead {t : State} (hready : s.ready p) (ht : s.token = some p)
    (e : (takeCancelHead p (s.busyWith p .cancelHead n .taken)).settle = t) : exec (.cancelHead p n) s = .next t :=
  (cycle_command hready (by decide)).trans (by rw [takeCommand_cancelHead ht, e])

end CancelHead

/-- Settles O44: the refusals of CANCEL_HEAD outside FROZEN and of an empty queue, and the dropped head by its source. -/
theorem cancelHeadDropsTheHead : Obligations.CancelHeadDropsTheHead := by
  intro s p n hready htoken
  have ⟨⟨_, hrep⟩, _⟩ := hready
  refine ⟨fun hx => ?_, fun hx hq => ?_, fun o rest hx hq => ⟨fun q ho hin hroom => ?_, fun ho hroom => ?_⟩⟩
  · refine exec_cancelHead hready htoken ?_
    rw [takeCancelHead_of_not_frozen (by exact hx), settle_refuse_plain hready rfl]
  · refine exec_cancelHead hready htoken ?_
    rw [takeCancelHead_of_empty (by exact hx) (by exact hq), settle_refuse_plain hready rfl]
  · let noted : State := { s with queue := rest }.noted (fun x => x == q) fun _ => s.noteOf .dropped o.slot
    have tells : State.tellDropped { s.busyWith p .cancelHead n .taken with queue := rest } o.source o.slot =
        noted.busyWith p .cancelHead n .taken := by
      rw [ho]
      exact tellDropped_of_room hin hroom
    refine exec_cancelHead hready htoken ?_
    rw [takeCancelHead_of_port (s := s.busyWith p .cancelHead n .taken) hx hq ho, tells, post_busyWith]
    exact State.settle_nil _ hrep
  · let timedOut : State :=
      { s.noted (fun x => (s.slot o.slot).requesters.has x) (fun _ => s.noteOf .requestTimeout o.slot) with
        queue := rest
        slots := s.slots.set o.slot { s.slot o.slot with requesters := PortSet.empty, deadline := none } }
    have tells : State.timeOutRequesters { s.busyWith p .cancelHead n .taken with queue := rest } o.slot =
        timedOut.busyWith p .cancelHead n .taken := timeOutRequesters_of_room hroom
    refine exec_cancelHead hready htoken ?_
    rw [takeCancelHead_of_echo (s := s.busyWith p .cancelHead n .taken) hx hq ho, tells, post_busyWith]
    exact State.settle_nil _ hrep

end Sys2Proof.Publication
end

section
namespace Sys2Proof.Publication
open Sys2Proof Sys2Proof.Machine

/-! ### The words that a Port Unit stores (R26, R169, R170) -/

/-- The offsets of ARG0–ARG2, COMPOSE LENGTH and COMPOSE DATA. -/
abbrev PortStored (n : Nat) : Prop := (1 ≤ n ∧ n ≤ 3) ∨ (9 ≤ n ∧ n ≤ 0x11)

/-- The stored word of a Port Unit at one of these offsets. -/
def storedWord (u : PortUnit) (n : Nat) : Word :=
  if n = 1 then u.arg0 else if n = 2 then u.arg1 else if n = 3 then u.arg2 else if n = 9 then u.composeLength
  else u.composeData.get (eighth (n - 0x0A))

/-- The Port Unit with a word stored at one of these offsets. -/
def storeWord (u : PortUnit) (n : Nat) (w : Word) : PortUnit :=
  if n = 1 then { u with arg0 := w } else if n = 2 then { u with arg1 := w } else if n = 3 then { u with arg2 := w }
  else if n = 9 then { u with composeLength := w } else { u with composeData := u.composeData.set (eighth (n - 0x0A)) w }

/-- The records of a Port Unit that are not stored words. -/
def SameRecords (u v : PortUnit) : Prop :=
  v.unit = u.unit ∧ v.latch = u.latch ∧ v.notesEnable = u.notesEnable ∧ v.doneEnable = u.doneEnable ∧
    v.timeLatch = u.timeLatch ∧ v.maintenance = u.maintenance ∧ v.lastRead = u.lastRead

section StoredWords
variable {s : State} {p q : Port} {off o : BitVec 6} {w : Word} {m n : Nat}

theorem eighth_inj {a b : Nat} (ha : a < 8) (hb : b < 8) (h : eighth a = eighth b) : a = b := by
  have := congrArg Fin.val h
  simp only [eighth] at this
  omega

theorem storeWord_sameRecords (u : PortUnit) (n : Nat) (w : Word) : SameRecords u (storeWord u n w) := by
  unfold storeWord SameRecords
  split_ifs <;> exact ⟨rfl, rfl, rfl, rfl, rfl, rfl, rfl⟩

theorem storedWord_storeWord_self (u : PortUnit) (n : Nat) (w : Word) : storedWord (storeWord u n w) n = w := by
  unfold storedWord storeWord
  split_ifs <;> simp

theorem storedWord_storeWord_of_ne (u : PortUnit) (hm : PortStored m) (hn : PortStored n) (h : m ≠ n) (w : Word) :
    storedWord (storeWord u n w) m = storedWord u m := by
  have scalar : n = 1 ∨ n = 2 ∨ n = 3 ∨ n = 9 ∨ 10 ≤ n := by omega
  rcases scalar with rfl | rfl | rfl | rfl | hn10
  · simp [storedWord, storeWord, h]
  · simp [storedWord, storeWord, h]
  · simp [storedWord, storeWord, h]
  · simp [storedWord, storeWord, h]
  · have store : storeWord u n w = { u with composeData := u.composeData.set (eighth (n - 0x0A)) w } := by
      simp only [storeWord]
      rw [if_neg (by omega), if_neg (by omega), if_neg (by omega), if_neg (by omega)]
    rw [store]
    by_cases hm10 : 10 ≤ m
    · have other : eighth (m - 0x0A) ≠ eighth (n - 0x0A) := fun e => by
        have := eighth_inj (by omega) (by omega) e
        omega
      simp only [storedWord, Table.get_set_ne _ other]
    · have : m = 1 ∨ m = 2 ∨ m = 3 ∨ m = 9 := by omega
      rcases this with rfl | rfl | rfl | rfl <;> rfl

theorem windowRead_of_portStored (h : PortStored o.toNat) : s.windowRead p o = storedWord (s.port p) o.toNat := by
  unfold State.windowRead storedWord
  generalize o.toNat = n at *
  rcases h with ⟨hlo, hhi⟩ | ⟨hlo, hhi⟩ <;> interval_cases n <;> rfl

/-- Every other word of the window reads a record that the stores leave alone. -/
theorem windowRead_modPort_of_sameRecords {f : PortUnit → PortUnit} (hf : SameRecords (s.port p) (f (s.port p)))
    (h : ¬PortStored o.toNat) : (s.modPort p f).windowRead p o = s.windowRead p o := by
  obtain ⟨hunit, hlatch, hnotes, hdone, htime, hmaint, -⟩ := hf
  have h1 : o.toNat ≠ 1 := by omega
  have h2 : o.toNat ≠ 2 := by omega
  have h3 : o.toNat ≠ 3 := by omega
  have h9 : o.toNat ≠ 9 := by omega
  simp only [State.windowRead, State.statusWord, PortUnit.enableWord, State.port_modPort_self, if_neg h1, if_neg h2, if_neg h3,
    if_neg h9, hunit, hlatch, hnotes, hdone, htime, hmaint]
  by_cases hle : o.toNat ≤ 0x11
  · have low : o.toNat = 0 ∨ o.toNat = 4 ∨ o.toNat = 5 ∨ o.toNat = 6 ∨ o.toNat = 7 ∨ o.toNat = 8 := by omega
    rcases low with e | e | e | e | e | e <;> rw [e] <;> rfl
  · simp only [if_neg hle]
    rfl

theorem writeStored_of_portStored (h : PortStored off.toNat) :
    s.writeStored p off w = s.modPort p fun u => storeWord u off.toNat w := by
  unfold State.writeStored storeWord
  generalize off.toNat = n at *
  rcases h with ⟨hlo, hhi⟩ | ⟨hlo, hhi⟩ <;> interval_cases n <;> rfl

/-- The words of a window depend on no other port's unit and filters. -/
theorem windowRead_of_records {P : PerPort PortUnit} {N : PerPort NoteUnit} (hP : P.get q = s.ports.get q)
    (hN : N.get q = s.notes.get q) (o : BitVec 6) :
    State.windowRead { s with ports := P, notes := N } q o = s.windowRead q o := by
  simp only [State.windowRead, State.statusWord, State.port, State.noteUnit, hP, hN]
  rfl

/-- Storing a word of a Port Unit changes what that word reads as, and no other word. -/
theorem windowRead_storeWord_self (h : PortStored off.toNat) :
    (s.modPort p fun u => storeWord u off.toNat w).windowRead p off = w := by
  rw [windowRead_of_portStored h, State.port_modPort_self, storedWord_storeWord_self]

theorem windowRead_storeWord_of_ne (h : PortStored off.toNat) (hne : q ≠ p ∨ o ≠ off) :
    (s.modPort p fun u => storeWord u off.toNat w).windowRead q o = s.windowRead q o := by
  by_cases hq : q = p
  · subst hq
    have ho : o.toNat ≠ off.toNat := fun e => hne.elim (fun h => h rfl) fun h => h (BitVec.eq_of_toNat_eq e)
    by_cases hs : PortStored o.toNat
    · rw [windowRead_of_portStored hs, windowRead_of_portStored hs, State.port_modPort_self,
        storedWord_storeWord_of_ne _ hs h ho]
    · exact windowRead_modPort_of_sameRecords (storeWord_sameRecords _ _ _) hs
  · exact windowRead_of_records (N := s.notes) (PerPort.get_set_ne _ hq _) rfl o

/-! ### The filter words (R68, R178) -/

/-- The offsets of the filter words. -/
abbrev FilterStored (n : Nat) : Prop := 0x28 ≤ n ∧ n ≤ 0x37

/-- The filter word at one of these offsets: an identifier word at an even one, a mask word at an odd one. -/
def filterWord (m : NoteUnit) (n : Nat) : Word :=
  let f := m.filters.get (eighth ((n - 0x28) / 2))
  if n % 2 = 0 then f.identWord else f.maskWord

/-- The filter that a write at one of these offsets leaves. -/
def storeFilter (f : Filter) (n : Nat) (w : Word) : Filter :=
  if n % 2 = 0 then { f with identifier := w.extractLsb' 0 12, enabled := w.getLsbD 15 }
  else { f with mask := w.extractLsb' 0 12 }

/-- The Notification Unit's record of a port with a filter word written at one of these offsets. -/
def writeFilterUnit (m : NoteUnit) (n : Nat) (w : Word) : NoteUnit :=
  let i := eighth ((n - 0x28) / 2)
  { m with filters := m.filters.set i (storeFilter (m.filters.get i) n w) }

theorem writeFilter_eq (s : State) (p : Port) (n : Nat) (w : Word) :
    s.writeFilter p n w = s.modNotes p fun m => writeFilterUnit m n w := rfl

theorem windowRead_of_filterStored (h : FilterStored o.toNat) : s.windowRead p o = filterWord (s.noteUnit p) o.toNat := by
  unfold State.windowRead filterWord
  generalize o.toNat = n at *
  obtain ⟨hlo, hhi⟩ := h
  interval_cases n <;> rfl

theorem writeStored_of_filterStored (h : FilterStored off.toNat) : s.writeStored p off w = s.writeFilter p off.toNat w := by
  unfold State.writeStored
  generalize off.toNat = n at *
  obtain ⟨hlo, hhi⟩ := h
  interval_cases n <;> rfl

theorem windowRead_modNotes_of_queue {f : NoteUnit → NoteUnit} (hf : (f (s.noteUnit p)).queue = (s.noteUnit p).queue)
    (h : ¬FilterStored o.toNat) : (s.modNotes p f).windowRead p o = s.windowRead p o := by
  simp only [State.windowRead, State.statusWord, State.noteUnit_modNotes_self, hf]
  by_cases hle : o.toNat ≤ 0x37
  · have low : o.toNat ≤ 0x27 := by omega
    simp only [if_pos low]
    rfl
  · simp only [if_neg hle]
    rfl

theorem identWord_of_write (f : Filter) (w : Word) :
    Filter.identWord { f with identifier := w.extractLsb' 0 12, enabled := w.getLsbD 15 } = w &&& 0x8FFF#16 := by
  refine BitVec.eq_of_getLsbD_eq fun i hi => ?_
  rw [Filter.identWord, BitVec.getLsbD_append (x := BitVec.ofBool (w.getLsbD 15) ++ 0#3) (y := w.extractLsb' 0 12),
    BitVec.getLsbD_append]
  interval_cases i <;> simp

theorem maskWord_of_write (f : Filter) (w : Word) :
    Filter.maskWord { f with mask := w.extractLsb' 0 12 } = w &&& 0x0FFF#16 := by
  refine BitVec.eq_of_getLsbD_eq fun i hi => ?_
  rw [Filter.maskWord, BitVec.getLsbD_append (x := 0#4) (y := w.extractLsb' 0 12)]
  interval_cases i <;> simp

theorem filterWord_of_write_self (m : NoteUnit) (n : Nat) (w : Word) :
    filterWord (writeFilterUnit m n w) n = w &&& if n % 2 = 0 then 0x8FFF#16 else 0x0FFF#16 := by
  simp only [filterWord, writeFilterUnit, Table.get_set_self, storeFilter]
  split
  · exact identWord_of_write _ w
  · exact maskWord_of_write _ w

theorem filterWord_of_write_of_ne (m : NoteUnit) {n i : Nat} (hn : FilterStored n) (hi : FilterStored i) (h : i ≠ n)
    (w : Word) : filterWord (writeFilterUnit m n w) i = filterWord m i := by
  simp only [filterWord, writeFilterUnit]
  by_cases e : eighth ((i - 0x28) / 2) = eighth ((n - 0x28) / 2)
  · have same : (i - 0x28) / 2 = (n - 0x28) / 2 := eighth_inj (by omega) (by omega) e
    rw [e, Table.get_set_self, storeFilter]
    by_cases even : n % 2 = 0
    · have odd : ¬i % 2 = 0 := by omega
      rw [if_pos even, if_neg odd, if_neg odd]
      rfl
    · have even' : i % 2 = 0 := by omega
      rw [if_neg even, if_pos even', if_pos even']
      rfl
  · rw [Table.get_set_ne _ e]

/-- Writing a filter word changes what that word reads as, in the bits it uses, and no other word. -/
theorem windowRead_writeFilter_self (h : FilterStored off.toNat) :
    (s.writeFilter p off.toNat w).windowRead p off = w &&& if off.toNat % 2 = 0 then 0x8FFF#16 else 0x0FFF#16 := by
  rw [windowRead_of_filterStored h, writeFilter_eq, State.noteUnit_modNotes_self, filterWord_of_write_self]

theorem windowRead_writeFilter_of_ne (h : FilterStored off.toNat) (hne : q ≠ p ∨ o ≠ off) :
    (s.writeFilter p off.toNat w).windowRead q o = s.windowRead q o := by
  rw [writeFilter_eq]
  by_cases hq : q = p
  · subst hq
    have ho : o.toNat ≠ off.toNat := fun e => hne.elim (fun h => h rfl) fun h => h (BitVec.eq_of_toNat_eq e)
    by_cases hs : FilterStored o.toNat
    · rw [windowRead_of_filterStored hs, windowRead_of_filterStored hs, State.noteUnit_modNotes_self,
        filterWord_of_write_of_ne _ h hs ho]
    · exact windowRead_modNotes_of_queue rfl hs
  · exact windowRead_of_records (P := s.ports) rfl (PerPort.get_set_ne _ hq _) o

theorem storedOffset_iff : storedOffset off = true ↔ PortStored off.toNat ∨ FilterStored off.toNat := by
  simp only [storedOffset, Bool.or_eq_true, Bool.and_eq_true, decide_eq_true_eq]

/-- A word that is not stored keeps what it reads as (R169). -/
theorem writeStored_of_not_stored (h : storedOffset off = false) (h25 : off.toNat ≠ 0x25) : s.writeStored p off w = s := by
  have notStored : ¬(PortStored off.toNat ∨ FilterStored off.toNat) := by
    rw [← storedOffset_iff, h]
    exact Bool.false_ne_true
  unfold State.writeStored
  generalize off.toNat = n at *
  have data : (decide (0x0A ≤ n) && decide (n ≤ 0x11)) ≠ true := by simp; omega
  have filters : (decide (0x28 ≤ n) && decide (n ≤ 0x37)) ≠ true := by simp; omega
  simp only
  rw [if_neg (by omega), if_neg (by omega), if_neg (by omega), if_neg (by omega), if_neg data, if_neg h25, if_neg filters]

theorem exec_registerWrite_eq : exec (.registerWrite p off w) s = execRegisterWrite p off w s := rfl

theorem exec_registerWrite (hs : s.listens p) (h0 : off ≠ 0#6) {t : State} (e : s.writeStored p off w = t)
    (hr : t.reports = s.reports) : exec (.registerWrite p off w) s = .next t := by
  obtain ⟨⟨hreset, hrep⟩, hline⟩ := hs
  rw [exec_registerWrite_eq, execRegisterWrite, cycle_next hreset hline, if_neg h0, e, State.settle_nil t (hr.trans hrep)]

end StoredWords

/-- Settles O49: a stored word is one of the Port Unit's or a filter word of the Notification Unit's. -/
theorem registerWriteStoresTheWord : Obligations.RegisterWriteStoresTheWord := by
  intro s p off w hs
  refine ⟨fun hstored => ?_, fun hstored h0 h25 => ?_⟩
  · have h0 : off ≠ 0#6 := by
      rintro rfl
      cases hstored
    rcases storedOffset_iff.mp hstored with hport | hfilter
    · have used : off.toNat < 0x28 := by omega
      refine ⟨_, exec_registerWrite hs h0 (writeStored_of_portStored hport) rfl, ?_, fun q o => windowRead_storeWord_of_ne hport,
        rfl, fun q => ⟨rfl, rfl⟩, fun q => ?_⟩
      · rw [windowRead_storeWord_self hport, if_pos used]
        exact (BitVec.and_allOnes (x := w)).symm
      · obtain ⟨hunit, hlatch, -, -, -, hmaint, hlast⟩ := storeWord_sameRecords (s.port p) off.toNat w
        rw [State.port_modPort]
        split
        · next e =>
          subst e
          exact ⟨hunit, hlatch, hmaint, hlast⟩
        · exact ⟨rfl, rfl, rfl, rfl⟩
    · have used : ¬off.toNat < 0x28 := by omega
      refine ⟨_, exec_registerWrite hs h0 (writeStored_of_filterStored hfilter) rfl, ?_,
        fun q o => windowRead_writeFilter_of_ne hfilter, rfl, fun q => ?_, fun q => ⟨rfl, rfl, rfl, rfl⟩⟩
      · rw [windowRead_writeFilter_self hfilter, if_neg used]
      · rw [writeFilter_eq, State.noteUnit_modNotes]
        split
        · next e =>
          subst e
          exact ⟨rfl, rfl⟩
        · exact ⟨rfl, rfl⟩
  · exact exec_registerWrite hs (fun e => h0 (by rw [e]; rfl)) (writeStored_of_not_stored hstored h25) rfl

end Sys2Proof.Publication
end

section
namespace Sys2Proof.Views
open Sys2Proof Sys2Proof.Machine Sys2Proof.Publication

/-! ### The end of a hold (R16, R58) -/

section HoldEnds
variable {s : State} {p : Port} {k : SlotIx} {h : Hold}

theorem endsQuietly_iff (hh : s.hold p = some h) :
    s.endsQuietly p = true ↔
      s.heldByOther p h.slot = true ∨ ((s.slot h.slot).parked = none ∧ (s.slot h.slot).state ≠ .retiring) := by
  simp [State.endsQuietly, hh]

theorem holdSet_isEmpty_setHold_of_heldByOther (h : s.heldByOther p k = true) :
    ((s.setHold p none).holdSet k).isEmpty = false := by
  obtain ⟨q, -, hq⟩ := List.any_eq_true.mp h
  simp only [Bool.and_eq_true, bne_iff_ne] at hq
  obtain ⟨hne, holds⟩ := hq
  refine holdSet_isEmpty_eq_false ⟨q, ?_⟩
  rw [State.holding, s.hold_setHold q p none, if_neg hne]
  exact holds

theorem commitOnEmpty_of_unparked (h : (s.slot k).parked = none) : s.commitOnEmpty k = s := by
  simp [State.commitOnEmpty, h]

/-- The end of a hold that has no consequence at another block leaves the hold record empty, and nothing else (R58). -/
theorem endHold_of_quiet (hq : s.endsQuietly p = true) : s.endHold p = { s with holds := s.holds.set p none } := by
  unfold State.endHold
  split
  · next hh =>
    have same : s.holds.set p none = s.holds := by
      unfold State.hold at hh
      rw [← hh, PerPort.set_get_self]
    rw [same]
  · next h hh =>
    rcases (endsQuietly_iff hh).mp hq with other | ⟨unparked, stays⟩
    · rw [State.holdLeft, holdSet_isEmpty_setHold_of_heldByOther other, if_neg Bool.false_ne_true]
      rfl
    · have commits : (s.setHold p none).commitOnEmpty h.slot = s.setHold p none := commitOnEmpty_of_unparked unparked
      have tests : (s.setHold p none).testRetirement h.slot = s.setHold p none := testRetirement_of_state stays
      rw [State.holdLeft, commits, tests, ite_self]
      rfl

theorem endRetires_of_quiet (hq : s.endsQuietly p = true) : s.endRetires p = false := by
  unfold State.endRetires
  split
  · rfl
  · next h hh =>
    rcases (endsQuietly_iff hh).mp hq with other | ⟨-, stays⟩
    · simp [State.retirementDue, holdSet_isEmpty_setHold_of_heldByOther other]
    · have slot : (s.setHold p none).slot h.slot = s.slot h.slot := rfl
      simp [State.retirementDue, slot, stays]

end HoldEnds

/-! ### The completion of a retirement (R16, R56, R76) -/

section Retirement
variable {s : State} {p : Port} {k : SlotIx} {h : Hold}

/-- A note that coalesces with none of the queued ones is placed where there is room. -/
theorem appendNote_of_fresh {n : Note} (hf : ∀ m ∈ (s.noteUnit p).queue, sameMatter n m = false) (hr : s.roomFor p = true) :
    s.appendNote p n = s.modNotes p fun m => { m with queue := m.queue ++ [n] } := by
  simp only [State.roomFor, Bool.and_eq_true, beq_iff_eq, decide_eq_true_eq, List.all_eq_true, bne_iff_ne] at hr
  obtain ⟨⟨hdelivers, hordinary⟩, hlen⟩ := hr
  have noLost : lostPending (s.noteUnit p).queue = false := lostPending_eq_false.mpr hordinary
  have fresh : (s.noteUnit p).queue.any (sameMatter n) = false := by
    rw [List.any_eq_false]
    exact fun m hm => by rw [hf m hm]; exact Bool.false_ne_true
  have place : ¬Config.ordinaryLimit ≤ (s.noteUnit p).queue.length := Nat.not_le.mpr hlen
  simp [State.appendNote, appendTest, hdelivers, fresh, noLost, place]

/-- A visit to every port that rewrites the port's Notification Unit record, whatever the visits before it have done. -/
theorem foldl_noteUnits {g : State → Port → State} {u : Port → NoteUnit}
    (hg : ∀ t q, t.noteUnit q = s.noteUnit q → g t q = { t with notes := t.notes.set q (u q) }) :
    Port.all.foldl g s = { s with notes := PerPort.ofFn u } := by
  unfold Port.all
  rw [List.foldl_cons, List.foldl_cons, List.foldl_cons, List.foldl_cons, List.foldl_nil, hg s .a rfl, hg _ .b (by rfl),
    hg _ .c (by rfl), hg _ .d (by rfl)]
  rfl

/-- A RETIRED note is placed in the queue of every subscriber that has room for it. -/
theorem tell_retired_of_room (hr : s.roomToRetire k) :
    s.tell (s.subscribers k) .retired k = s.noted (s.subscribes k) fun _ => s.noteOf .retired k := by
  have appends (t : State) (q : Port) (hq : t.noteUnit q = s.noteUnit q) :
      (if (s.subscribers k).has q then t.appendNote q (s.noteOf .retired k) else t) =
        { t with notes := t.notes.set q (toldUnit s (s.subscribers k) (fun _ => s.noteOf .retired k) q) } := by
    unfold toldUnit
    rw [State.subscribers_has]
    by_cases hs : s.subscribes k q = true
    · obtain ⟨hroom, hother⟩ := hr q hs
      have room : t.roomFor q = true := by rwa [State.roomFor, hq]
      have fresh : ∀ m ∈ (t.noteUnit q).queue, sameMatter (s.noteOf .retired k) m = false := by
        rw [hq]
        intro m hm
        have := hother m hm
        simp only [sameMatter, State.noteOf, Bool.and_eq_false_iff, beq_eq_false_iff_ne]
        tauto
      rw [if_pos hs, if_pos hs, appendNote_of_fresh fresh room, State.modNotes, hq]
    · rw [if_neg hs, if_neg hs, ← hq, State.noteUnit, PerPort.set_get_self]
  have told : s.subscribes k = fun q => (s.subscribers k).has q := funext fun q => (s.subscribers_has k q).symm
  rw [told]
  exact foldl_noteUnits appends

/-- The Port Unit with its BUSY command, where that is a VIEW waiting for slot `k`, left to be answered RETIRING. -/
def unitGone (s : State) (k : SlotIx) (q : Port) : PortUnit :=
  let u := s.port q
  if s.phaseOf q = some (.behindLanding k) then
    { u with unit := { u.unit with busy := u.unit.busy.map fun b => { b with phase := .slotGone } } }
  else u

theorem viewsGone_eq (s : State) (k : SlotIx) : s.viewsGone k = { s with ports := PerPort.ofFn (unitGone s k) } := by
  have moves (t : State) (q : Port) :
      (if t.phaseOf q = some (.behindLanding k) then t.setPhase q .slotGone else t) =
        { t with ports := t.ports.set q (unitGone t k q) } := by
    unfold unitGone
    split
    · rfl
    · simp [State.port]
  unfold State.viewsGone
  simp only [Port.all, List.foldl_cons, List.foldl_nil, moves]
  rfl

/-- A retirement completes with its notes placed. -/
theorem completeRetirement_of_room (hr : s.roomToRetire k) : s.completeRetirement k = s.retired k := by
  rw [State.completeRetirement, tell_retired_of_room hr, viewsGone_eq]
  refine congrArg (fun notes => { s.retired k with notes := notes }) (PerPort.ext_get fun q => ?_)
  have told : (s.noted (s.subscribes k) fun _ => s.noteOf .retired k).noteUnit q =
      if s.subscribes k q then { s.noteUnit q with queue := (s.noteUnit q).queue ++ [s.noteOf .retired k] }
      else s.noteUnit q := PerPort.get_ofFn _ q
  refine (PerPort.get_ofFn _ q).trans (Eq.trans ?_ (PerPort.get_ofFn _ q).symm)
  rw [told]
  cases s.subscribes k q <;> rfl

/-- The last hold of a RETIRING slot, with no landing on it, ends: the retirement completes (R16, R58). -/
theorem endHold_of_retiring (hh : s.hold p = some h) (ho : s.heldByOther p h.slot = false)
    (hs : (s.slot h.slot).state = .retiring) (hp : (s.slot h.slot).parked = none) (hm : s.landingMark h.slot = false)
    (hr : s.roomToRetire h.slot) : s.endHold p = { s with holds := s.holds.set p none }.retired h.slot := by
  have empty : ((s.setHold p none).holdSet h.slot).isEmpty = true := holdSet_isEmpty_setHold_none ho
  have commits : (s.setHold p none).commitOnEmpty h.slot = s.setHold p none := commitOnEmpty_of_unparked hp
  have due : (s.setHold p none).retirementDue h.slot = true := by
    have slot : (s.setHold p none).slot h.slot = s.slot h.slot := rfl
    have mark : (s.setHold p none).landingMark h.slot = s.landingMark h.slot := rfl
    simp [State.retirementDue, slot, mark, empty, hs, hm]
  rw [State.endHold, hh]
  dsimp only
  rw [State.holdLeft, if_pos empty, commits, State.testRetirement, if_pos due]
  exact completeRetirement_of_room (s := s.setHold p none) hr

theorem port_retired (s : State) (k : SlotIx) (q : Port) : (s.retired k).port q = unitGone s k q := PerPort.get_ofFn _ q

theorem unitGone_of_not_waiting {q : Port} (h : s.phaseOf q ≠ some (.behindLanding k)) : unitGone s k q = s.port q := if_neg h

/-- A command with its block does not wait for the slot. -/
theorem retired_busyWith (c : Command) (n : Byte) (hidle : (s.port p).unit.busy = none) :
    (s.busyWith p c n .taken).retired k = (s.retired k).busyWith p c n .taken := by
  have ports (q : Port) : ((s.busyWith p c n .taken).retired k).port q = ((s.retired k).busyWith p c n .taken).port q := by
    rw [port_retired]
    by_cases hq : q = p
    · subst hq
      have taken : (s.busyWith q c n .taken).phaseOf q ≠ some (.behindLanding k) := by simp [State.phaseOf]
      have idle : s.phaseOf q ≠ some (.behindLanding k) := by simp [State.phaseOf, hidle]
      rw [unitGone_of_not_waiting taken, port_busyWith, port_busyWith, port_retired, unitGone_of_not_waiting idle]
    · have same (t : State) : (t.busyWith p c n .taken).port q = t.port q := PerPort.get_set_ne _ hq _
      rw [same, port_retired, unitGone, State.phaseOf, same]
      rfl
  exact congrArg (fun ports => { s.retired k with ports := ports }) (PerPort.ext_get ports)

end Retirement

/-! ### RELEASE (R58) -/

section Release
variable {s X : State} {p : Port} {n : Byte} {h : Hold}

theorem exec_release_of_none (hready : s.ready p) (hh : s.hold p = none) :
    exec (.release p n) s = .next (s.answered p .notHeld) := by
  have takes : takeCommand .release p n (s.busyWith p .release n .taken) =
      (s.busyWith p .release n .taken).refuse p .notHeld := by
    have hold : (s.busyWith p .release n .taken).hold p = none := hh
    simp only [takeCommand, takeRelease, hold]
  exact (cycle_command hready (by decide)).trans (by rw [takes, settle_refuse_plain hready rfl])

/-- What RELEASE of a held slot comes to, by what the end of the hold makes of the state. -/
theorem exec_release_of_endHold (hready : s.ready p) (hh : s.hold p = some h)
    (e : (s.busyWith p .release n .taken).endHold p = X.busyWith p .release n .taken) (hr : X.reports = s.reports) :
    exec (.release p n) s = .next (X.answered p .done) := by
  have ⟨⟨_, hrep⟩, _⟩ := hready
  have takes : takeCommand .release p n (s.busyWith p .release n .taken) = X.answered p .done := by
    have hold : (s.busyWith p .release n .taken).hold p = some h := hh
    simp only [takeCommand, takeRelease, hold, e, post_busyWith]
  exact (cycle_command hready (by decide)).trans
    (congrArg _ (by rw [takes]; exact State.settle_nil _ (hr.trans hrep)))

end Release

/-- Settles O25: no hold, a quiet end of the hold, and the end that completes a retirement. -/
theorem releaseEndsTheHold : Obligations.ReleaseEndsTheHold := by
  intro s p n hready
  refine ⟨fun hh => exec_release_of_none hready hh, fun h hh hq => ?_, fun h hh ho hs hp hm hr => ?_⟩
  · exact exec_release_of_endHold (X := { s with holds := s.holds.set p none }) hready hh
      (endHold_of_quiet (s := s.busyWith p .release n .taken) hq) rfl
  · have ⟨_, hidle, _⟩ := hready
    have retires := endHold_of_retiring (s := s.busyWith p .release n .taken) hh ho hs hp hm hr
    have ends : (s.busyWith p .release n .taken).endHold p =
        ((s.setHold p none).retired h.slot).busyWith p .release n .taken :=
      retires.trans (retired_busyWith (s := s.setHold p none) .release n hidle)
    exact exec_release_of_endHold hready hh ends rfl

end Sys2Proof.Views
end

section
namespace Sys2Proof.Views
open Sys2Proof Sys2Proof.Machine Sys2Proof.Publication

/-! ### The grant of a VIEW (R44, R45, R54, R56) -/

section Grant
variable {s : State} {p : Port} {k : SlotIx}

theorem table_set_get {n : Nat} {α : Type} (t : Table n α) (i : Fin n) : t.set i (t.get i) = t :=
  Table.ext_get fun j => by
    rw [Table.get_set]
    split
    · next h => rw [h]
    · rfl

theorem table_set_set {n : Nat} {α : Type} (t : Table n α) (i : Fin n) (x y : α) : (t.set i x).set i y = t.set i y :=
  Table.ext_get fun j => by
    rw [Table.get_set, Table.get_set, Table.get_set]
    split <;> rfl

/-- A due value of the slot is its pending value again, and no due value of the slot is left (R44). -/
theorem reclaimDue_eq (s : State) (k : SlotIx) :
    s.reclaimDue k =
      { s with
        slots := s.slots.set k { s.slot k with parked := (s.due.find? fun o => o.slot == k).or (s.slot k).parked }
        due := s.due.filter fun o => o.slot != k } := by
  unfold State.reclaimDue
  split
  · next o e =>
    rw [e]
    rfl
  · next e =>
    have stay : s.due.filter (fun o => o.slot != k) = s.due := by
      rw [List.filter_eq_self]
      intro o ho
      simpa using List.find?_eq_none.mp e o ho
    rw [e, stay]
    exact congrArg (fun slots => { s with slots := slots }) (table_set_get s.slots k).symm

/-- Steps 3 to 5 of R54, from the state in which the port's old hold has ended. -/
theorem capture_reclaimDue_unripen (s : State) (p : Port) (k : SlotIx) :
    ((({ s with holds := s.holds.set p none }.capture p k).reclaimDue k).unripen k) = s.withView p k := by
  have slot : ({ s with holds := s.holds.set p none }.capture p k).slot k = (s.slot k).seenBy p := State.slot_modSlot_self _ k _
  have slots : ({ s with holds := s.holds.set p none }.capture p k).slots = s.slots.set k ((s.slot k).seenBy p) := rfl
  rw [reclaimDue_eq, slot, slots, table_set_set]
  have hold : State.newHold { s with holds := s.holds.set p none } p k =
      { slot := k, expiry := s.time + 16#32 * s.holdTimeout.setWidth 32, viewState := (s.slot k).viewStateFor p,
        identifier := (s.slot k).config.identifier } := by
    rw [BitVec.mul_comm]
    rfl
  have holds : ({ s with holds := s.holds.set p none }.capture p k).holds = (s.withView p k).holds := by
    rw [State.capture, hold]
    exact PerPort.set_set s.holds p none _
  exact congrArg (fun holds => { s.withView p k with holds := holds }) holds

/-- The grant of a VIEW whose command is BUSY, where the end of the old hold has no consequence and the watch does not match. -/
theorem grantView_of_quiet (hb : ∃ b, (s.port p).unit.busy = some b) (hq : s.endsQuietly p = true)
    (hw : s.watch.hits .view k (.port p) = false) : s.grantView p k = (s.withView p k).answered p .done := by
  obtain ⟨b, hb⟩ := hb
  unfold State.grantView
  rw [endHold_of_quiet hq, capture_reclaimDue_unripen]
  dsimp only
  rw [State.post_busy (s := s.withView p k) hb]
  exact State.offerAct_unwatched (s := (s.withView p k).answered p .done) hw

theorem busy_of_phaseOf {ph : Phase} (h : s.phaseOf p = some ph) : ∃ b, (s.port p).unit.busy = some b := by
  obtain ⟨b, hb, -⟩ := Option.map_eq_some_iff.mp h
  exact ⟨b, hb⟩

theorem grantWaiting_of_behindLanding (hp : s.phaseOf p = some (.behindLanding k)) :
    s.grantWaiting p = if s.landingMark k || s.exchange == .restarting then s else s.grantView p k := by
  simp [State.grantWaiting, hp]

theorem grantWaiting_of_slotGone (hp : s.phaseOf p = some .slotGone) (hx : s.exchange ≠ .restarting) :
    s.grantWaiting p = s.refuse p .retiring := by
  simp [State.grantWaiting, hp, hx]

theorem grantWaiting_of_idle (hp : s.phaseOf p = none) : s.grantWaiting p = s := by
  simp [State.grantWaiting, hp]

theorem exec_viewGrant {t : State} (hs : s.settled) (e : (s.grantWaiting p).settle = t) :
    exec (.viewGrant p) s = .next t :=
  (event_next (f := fun u => u.grantWaiting p) hs.1).trans (congrArg _ e)

end Grant

/-- Settles O24: one case for each place where the port's VIEW can stand. -/
theorem waitingViewIsGranted : Obligations.WaitingViewIsGranted := by
  intro s p hs
  refine ⟨fun k hp => ⟨fun hm hx _ hq hw => ?_, fun hwait => ?_⟩, fun hp hx hin => ?_, fun hp => ?_⟩
  · have goes : (s.landingMark k || s.exchange == .restarting) = false := by simp [hm, hx]
    refine exec_viewGrant hs ?_
    rw [grantWaiting_of_behindLanding hp, goes, if_neg Bool.false_ne_true, grantView_of_quiet (busy_of_phaseOf hp) hq hw]
    exact State.settle_nil _ hs.2
  · have waits : (s.landingMark k || s.exchange == .restarting) = true := by simpa using hwait
    refine exec_viewGrant hs ?_
    rw [grantWaiting_of_behindLanding hp, if_pos waits, State.settle_nil s hs.2]
  · obtain ⟨b, hb⟩ := busy_of_phaseOf hp
    refine exec_viewGrant hs ?_
    rw [grantWaiting_of_slotGone hp hx, State.refuse, State.post_busy hb]
    exact settle_disturbance (s := s.answered p .retiring) hs.2 hin
  · refine exec_viewGrant hs ?_
    rw [grantWaiting_of_idle hp, State.settle_nil s hs.2]

end Sys2Proof.Views
end

section
namespace Sys2Proof.Views
open Sys2Proof Sys2Proof.Machine Sys2Proof.Publication

/-! ### The expiry of a hold (R16, R61, R74) -/

section Expiry
variable {s : State} {p : Port} {k : SlotIx} {h : Hold}

theorem expireHold_of_waiting (hh : s.hold p = some h) (hw : (s.timeRuns && s.reached h.expiry) = false) :
    expireHold p s = s := by
  simp [expireHold, hh, hw]

theorem expireHold_of_due (hh : s.hold p = some h) (hx : s.exchange = .running ∨ s.exchange = .freezing)
    (ht : s.time = h.expiry) :
    expireHold p s =
      ((s.endHold p).appendNote p ((s.endHold p).noteOf .holdExpired h.slot)).report p (.penalty Config.holdPenalty) := by
  have reached : s.reached h.expiry = true := ht ▸ reached_self
  simp [expireHold, hh, timeRuns_iff.mpr hx, reached]

theorem exec_holdExpiry {t : State} (hs : s.settled) (e : (expireHold p s).settle = t) :
    exec (.holdExpiry p) s = .next t := (event_next hs.1).trans (congrArg _ e)

theorem exec_holdExpiry_of_waiting (hs : s.settled) (hh : s.hold p = some h)
    (hw : (s.timeRuns && s.reached h.expiry) = false) : exec (.holdExpiry p) s = .next s :=
  exec_holdExpiry hs (by rw [expireHold_of_waiting hh hw, State.settle_nil s hs.2])

/-- A hold that expires, by the state that its end leaves: the note is placed and the penalty is taken. -/
theorem exec_holdExpiry_of_due {t : State} (hs : s.settled) (hh : s.hold p = some h)
    (hx : s.exchange = .running ∨ s.exchange = .freezing) (ht : s.time = h.expiry) (e : s.endHold p = t)
    (hr : t.reports = s.reports) (hhealth : t.health = s.health) (hroom : t.roomFor p = true) (hin : s.inside p = true)
    (hmark : (s.healthOf p).mark = false) (hb : s.bears p 8) :
    exec (.holdExpiry p) s = .next ((t.noted (fun q => q == p) fun _ => t.noteOf .holdExpired h.slot).fined p 8) := by
  have health : t.healthOf p = s.healthOf p := by rw [State.healthOf, hhealth]; rfl
  refine exec_holdExpiry hs ?_
  rw [expireHold_of_due hh hx ht, e, appendNote_of_room (fun _ => rfl) hroom, modNotes_append_eq_noted]
  refine settle_penalty (hr.trans hs.2) ?_ ?_ ?_
  · exact (congrArg (fun g : Health => !g.state.outside) health).trans hin
  · exact (congrArg Health.mark health).trans hmark
  · exact (congrArg (fun g : Health => g.score + 8 ≤ 255) health).mpr hb

theorem noteUnit_retired (s : State) (k : SlotIx) (q : Port) :
    (s.retired k).noteUnit q =
      { s.noteUnit q with
        queue := sealedFor k (if s.subscribes k q then
          (s.noteUnit q).queue ++ [s.noteAbout .retired k (s.slot k).config.identifier] else (s.noteUnit q).queue) } :=
  PerPort.get_ofFn _ q

/-- The completion of a retirement takes at most one place of a queue, and appends no LOST note. -/
theorem roomFor_retired (hr : s.roomFor p = true) (hlen : (s.noteUnit p).queue.length < 14) :
    (s.retired k).roomFor p = true := by
  simp only [State.roomFor, Bool.and_eq_true, beq_iff_eq, decide_eq_true_eq, List.all_eq_true, bne_iff_ne] at hr
  obtain ⟨⟨hdelivers, hordinary⟩, -⟩ := hr
  have ordinary :
      ∀ m ∈ (s.noteUnit p).queue ++ [s.noteAbout .retired k (s.slot k).config.identifier], m.reason ≠ .lost := by
    intro m hm
    rcases List.mem_append.mp hm with hm | hm
    · exact hordinary m hm
    · rw [List.mem_singleton.mp hm]
      exact fun e => nomatch e
  have seals (q : List Note) (hq : ∀ m ∈ q, m.reason ≠ .lost) : ∀ m ∈ sealedFor k q, m.reason ≠ .lost := by
    intro m hm
    obtain ⟨m', hm', rfl⟩ := List.mem_map.mp hm
    split <;> exact hq m' hm'
  simp only [State.roomFor, noteUnit_retired, Bool.and_eq_true, beq_iff_eq, decide_eq_true_eq, List.all_eq_true, bne_iff_ne]
  refine ⟨⟨hdelivers, seals _ ?_⟩, ?_⟩
  · split
    · exact ordinary
    · exact hordinary
  · rw [sealedFor, List.length_map]
    split
    · rw [List.length_append, List.length_singleton]
      omega
    · omega

/-- The note of a hold whose end completes a retirement is about a cleared record (log entry 13). -/
theorem noteOf_retired (s : State) (r : Reason) (k : SlotIx) : (s.retired k).noteOf r k = s.noteAbout r k 0#12 := by
  have slot : (s.retired k).slot k = Slot.cleared := Table.get_set_self _ _ _
  rw [State.noteOf, slot]
  rfl

end Expiry

/-- Settles O27: the expiry by the state that the end of the hold leaves, and the two conditions it waits for. -/
theorem holdExpires : Obligations.HoldExpires := by
  intro s p h hs hh
  refine ⟨fun hx ht hq hroom hin hmark hb => ?_, fun hx ht ho hstate hp hm hr hroom hlen hin hmark hb => ?_, fun hx => ?_,
    fun d h0 hd he => ?_⟩
  · exact exec_holdExpiry_of_due hs hh hx ht (endHold_of_quiet hq) rfl rfl hroom hin hmark hb
  · have room : ({ s with holds := s.holds.set p none }.retired h.slot).roomFor p = true := roomFor_retired hroom hlen
    have note := noteOf_retired { s with holds := s.holds.set p none } .holdExpired h.slot
    have expires := exec_holdExpiry_of_due hs hh hx ht (endHold_of_retiring hh ho hstate hp hm hr) rfl rfl room hin hmark hb
    rw [note] at expires
    exact expires
  · have stopped : s.timeRuns = false := by
      rw [← Bool.not_eq_true, timeRuns_iff]
      rcases hx with hx | hx | hx <;> simp [hx]
    exact exec_holdExpiry_of_waiting hs hh (by rw [stopped, Bool.false_and])
  · exact exec_holdExpiry_of_waiting hs hh (by rw [he, reached_of_ahead h0 hd, Bool.and_false])

end Sys2Proof.Views
end

section
namespace Sys2Proof.Views
open Sys2Proof Sys2Proof.Machine Sys2Proof.Publication

/-! ### Reads of NOTE TAKE (R59, R79, R81) -/

section NoteTake
variable {s : State} {p : Port} {n : Note} {rest : List Note}

/-- A single report has the same effect whichever block makes it. -/
theorem settle_noteReport {k : ReportKind} (h : s.reports = []) : (s.noteReport p k).settle = (s.report p k).settle := by
  rw [State.settle_one _ ⟨p, k, true⟩ (by simp [State.noteReport, h]),
    State.settle_one _ ⟨p, k, false⟩ (by simp [State.report, h])]
  rfl

/-- A port that is being detached earns no credit (R120). -/
theorem settle_credit_of_mark (h : s.reports = []) (hm : (s.healthOf p).mark = true) : (s.report p .credit).settle = s := by
  have takes : s.takeReport ⟨p, .credit, false⟩ = s := by simp [State.takeReport, State.takeCredit, hm]
  rw [settle_report h (fun q => by rw [takes]), takes]

theorem windowRead_noteTake : s.windowRead p 0x20#6 = noteTakeWord (s.noteUnit p).queue.head? := rfl

theorem popNote_of_nil (hq : (s.noteUnit p).queue = []) :
    s.popNote p = s.modPort p fun u => { u with latch := none, lastRead := some 0#16 } := by
  simp [State.popNote, hq, noteTakeWord]

theorem popNote_of_cons (hq : (s.noteUnit p).queue = n :: rest) :
    s.popNote p =
      ((s.modPort p fun u => { u with latch := some n, lastRead := some (s.windowRead p 0x20#6) }).modNotes p
        fun m => { m with queue := rest }).noteReport p .credit := by
  rw [windowRead_noteTake, hq]
  simp only [State.popNote, hq]
  rfl

theorem popNote_views (s : State) (p : Port) :
    (s.popNote p).holds = s.holds ∧ (s.popNote p).endsQuietly p = s.endsQuietly p := by
  unfold State.popNote
  split <;> exact ⟨rfl, rfl⟩

theorem takeNote_of_quiet (hq : s.endsQuietly p = true) :
    takeNote p s = { s.popNote p with holds := s.holds.set p none } := by
  obtain ⟨holds, quiet⟩ := popNote_views s p
  rw [takeNote, endRetires_of_quiet hq, if_neg Bool.false_ne_true, endHold_of_quiet (quiet.trans hq), holds]

theorem exec_noteTake {t : State} (hl : s.listens p) (e : (takeNote p s).settle = t) : exec (.noteTake p) s = .next t :=
  have ⟨⟨hreset, _⟩, hline⟩ := hl
  (cycle_next hreset hline).trans (congrArg _ e)

end NoteTake

/-- Settles O30: an empty queue, and a head note with its credit. -/
theorem noteTakePopsTheHead : Obligations.NoteTakePopsTheHead := by
  intro s p hl hquiet
  have ⟨⟨_, hrep⟩, _⟩ := hl
  refine ⟨fun hq => ⟨?_, ?_⟩, fun n rest hq hin => ⟨?_, ?_⟩⟩
  · rw [windowRead_noteTake, hq]
    rfl
  · refine exec_noteTake hl ?_
    rw [takeNote_of_quiet hquiet, popNote_of_nil hq]
    exact State.settle_nil _ hrep
  · rw [windowRead_noteTake, hq]
    rfl
  · intro t
    have takes : takeNote p s = t.noteReport p .credit := by
      rw [takeNote_of_quiet hquiet, popNote_of_cons hq]
      rfl
    have settles : (takeNote p s).settle = (t.report p .credit).settle := by
      rw [takes, settle_noteReport (s := t) hrep]
    exact ⟨fun hm => exec_noteTake hl (settles.trans (settle_credit hrep hin hm)),
      fun hm => exec_noteTake hl (settles.trans (settle_credit_of_mark hrep hm))⟩

end Sys2Proof.Views
end

section
namespace Sys2Proof.Views
open Sys2Proof Sys2Proof.Machine Sys2Proof.Publication

/-! ### Settings and the time base (R60, R110, R111, R132) -/

section Settings
variable {s X : State} {p q : Port} {n : Byte}

/-- What a token command comes to that its owning block `f` accepts, changing `s` to `X`. -/
theorem cycle_token_done {c : Command} {f : State → State} (hready : s.ready p) (ht : s.token = some p)
    (hc : c ≠ .resetPort) (hf : ∀ t : State, takeCommand c p n t = t.ifToken p f)
    (e : f (s.busyWith p c n .taken) = (X.busyWith p c n .taken).post p .done) (hr : X.reports = s.reports) :
    cycle p (fun t => t.writeCommand p c n) s = .next (X.answered p .done) := by
  have ⟨⟨_, hrep⟩, _⟩ := hready
  have passes : (s.busyWith p c n .taken).ifToken p f = f (s.busyWith p c n .taken) := if_pos ht
  rw [cycle_command hready hc, hf, passes, e, post_busyWith]
  exact congrArg _ (State.settle_nil _ (hr.trans hrep))

/-- What a token command comes to that its owning block `f` refuses with a penalised result. -/
theorem cycle_token_refused {c : Command} {f : State → State} {r : Result} (hready : s.ready p) (ht : s.token = some p)
    (hb : s.bears p 4) (hc : c ≠ .resetPort) (hf : ∀ t : State, takeCommand c p n t = t.ifToken p f)
    (e : f (s.busyWith p c n .taken) = (s.busyWith p c n .taken).refuse p r) (hr : r.penalised = true) :
    cycle p (fun t => t.writeCommand p c n) s = .next ((s.answered p r).fined p 4) := by
  have passes : (s.busyWith p c n .taken).ifToken p f = f (s.busyWith p c n .taken) := if_pos ht
  rw [cycle_command hready hc, hf, passes, e, settle_refuse_penalised hready hb hr]

theorem takeHoldTimeout_of_range (h1 : 1 ≤ (s.port p).arg0.toNat) (h2 : (s.port p).arg0.toNat ≤ 255) :
    takeHoldTimeout p s = { s with holdTimeout := BitVec.ofNat 8 (s.port p).arg0.toNat }.post p .done := by
  have range : ¬((s.port p).arg0 = 0#16 ∨ 255 < (s.port p).arg0.toNat) := by
    rintro (h | h)
    · rw [h] at h1
      exact absurd h1 (by decide)
    · omega
  rw [takeHoldTimeout, if_neg range, BitVec.ofNat_toNat]

theorem takeHoldTimeout_of_bad (h : (s.port p).arg0.toNat = 0 ∨ 255 < (s.port p).arg0.toNat) :
    takeHoldTimeout p s = s.refuse p .badArgument :=
  if_pos (h.imp_left fun h => BitVec.eq_of_toNat_eq h)

theorem takeRejoinPolicy_of_range (h0 : (s.port p).arg0.toNat = q.number) (h1 : (s.port p).arg1.toNat ≤ 1) :
    takeRejoinPolicy p s =
      { s with health := s.health.set q { s.healthOf q with autoRejoin := decide ((s.port p).arg1.toNat = 1) } }.post p
        .done := by
  have policy : ((s.port p).arg1 == 1#16) = decide ((s.port p).arg1.toNat = 1) := by
    rw [beq_eq_decide]
    exact decide_eq_decide.mpr (BitVec.toNat_inj (y := 1#16)).symm
  simp only [takeRejoinPolicy, portOfNumber_some h0, if_neg (Nat.not_lt.mpr h1), policy]
  rfl

theorem takeRejoinPolicy_of_bad (h : 3 < (s.port p).arg0.toNat ∨ 1 < (s.port p).arg1.toNat) :
    takeRejoinPolicy p s = s.refuse p .badArgument := by
  unfold takeRejoinPolicy
  dsimp only
  split
  · rfl
  · next q hq =>
    have big : 1 < (s.port p).arg1.toNat := h.resolve_left fun h => by simp [portOfNumber_none h] at hq
    rw [if_pos big]

/-- The value that SET_TIME writes: ARG1 the high half, ARG0 the low half (R110). -/
theorem append_eq_ofNat (b a : Word) : (b ++ a : Time) = BitVec.ofNat 32 (b.toNat * 65536 + a.toNat) := by
  apply BitVec.eq_of_toNat_eq
  have := a.isLt
  have := b.isLt
  rw [BitVec.toNat_append, BitVec.toNat_ofNat, ← Nat.shiftLeft_add_eq_or_of_lt a.isLt, Nat.shiftLeft_eq]
  omega

end Settings

/-- Settles O40: the range and the write of each of the three commands. -/
theorem settingsAndTimeAreSet : Obligations.SettingsAndTimeAreSet := by
  intro s p n hready ht
  have arg0 (c : Command) : ((s.busyWith p c n .taken).port p).arg0 = (s.port p).arg0 := by rw [port_busyWith]
  have arg1 (c : Command) : ((s.busyWith p c n .taken).port p).arg1 = (s.port p).arg1 := by rw [port_busyWith]
  refine ⟨fun h1 h2 => ?_, fun h hb => ?_, fun q h0 h1 => ?_, fun h hb => ?_, ?_⟩
  · refine cycle_token_done (X := { s with holdTimeout := BitVec.ofNat 8 (s.port p).arg0.toNat }) hready ht (by decide)
      (fun _ => rfl) ?_ rfl
    rw [takeHoldTimeout_of_range (by rwa [arg0]) (by rwa [arg0]), arg0]
    rfl
  · exact cycle_token_refused hready ht hb (by decide) (fun _ => rfl) (takeHoldTimeout_of_bad (by rwa [arg0])) rfl
  · refine cycle_token_done (X := { s with health := s.health.set q _ }) hready ht (by decide) (fun _ => rfl) ?_ rfl
    rw [takeRejoinPolicy_of_range (by rwa [arg0]) (by rwa [arg1]), arg1]
    rfl
  · exact cycle_token_refused hready ht hb (by decide) (fun _ => rfl) (takeRejoinPolicy_of_bad (by rwa [arg0, arg1])) rfl
  · intro v move
    have writes : takeSetTime p (s.busyWith p .setTime n .taken) =
        (({ s.moveTimers (v - s.time) with time := v, prescaler := 0#4 } : State).busyWith p .setTime n .taken).post p .done := by
      rw [takeSetTime, arg0, arg1, append_eq_ofNat]
      rfl
    exact cycle_token_done hready ht (by decide) (fun _ => rfl) writes rfl

end Sys2Proof.Views
end

section
namespace Sys2Proof.Notes
open Sys2Proof Sys2Proof.Machine Sys2Proof.Publication

/-! ### Subscribers (R68, R70) -/

theorem filter_matches_iff {f : Filter} {i : Ident} :
    f.matches i = true ↔ f.enabled = true ∧ ∀ b : Nat, f.mask.getLsbD b = true → f.identifier.getLsbD b = i.getLsbD b := by
  have agree : (f.identifier ^^^ i) &&& f.mask = 0#12 ↔
      ∀ b : Nat, f.mask.getLsbD b = true → f.identifier.getLsbD b = i.getLsbD b := by
    constructor
    · intro h b hb
      simpa [hb] using congrArg (fun x => x.getLsbD b) h
    · intro h
      refine BitVec.eq_of_getLsbD_eq fun b _ => ?_
      cases hb : f.mask.getLsbD b with
      | false => simp [hb]
      | true => simp [hb, h b hb]
  rw [Filter.matches, Bool.and_eq_true, beq_iff_eq, agree]

theorem table_any_iff {n : Nat} {α : Type} (t : Table n α) (P : α → Bool) :
    t.rows.any P = true ↔ ∃ i : Fin n, P (t.get i) = true := by
  rw [List.any_eq_true]
  constructor
  · rintro ⟨x, hx, hP⟩
    obtain ⟨i, hi, rfl⟩ := List.getElem_of_mem hx
    exact ⟨⟨i, t.size ▸ hi⟩, hP⟩
  · rintro ⟨i, hP⟩
    exact ⟨t.get i, List.getElem_mem _, hP⟩

theorem subscribes_iff {s : State} {k : SlotIx} {p : Port} :
    s.subscribes k p = true ↔
      p ≠ (s.slot k).config.owner ∧ s.inside p = true ∧ (s.noteUnit p).delivery = .delivering ∧
        ∃ i, ((s.noteUnit p).filters.get i).matches (s.slot k).config.identifier = true := by
  rw [State.subscribes, Bool.and_eq_true, Bool.and_eq_true, Bool.and_eq_true, bne_iff_ne, beq_iff_eq, NoteUnit.matches,
    table_any_iff, and_assoc, and_assoc]

/-- Settles O28: the health state that is inside the exchange, and the filter that matches, each by its own equivalence. -/
theorem subscribersAreTheMatchingPorts : Obligations.SubscribersAreTheMatchingPorts := by
  intro s k p
  simp only [subscribes_iff, inside_iff, filter_matches_iff]

end Sys2Proof.Notes
end

section
namespace Sys2Proof.Notes
open Sys2Proof Sys2Proof.Machine Sys2Proof.Publication Sys2Proof.Views

/-! ### The append of a note, test by test (R75 to R77) -/

section Append
variable {s : State} {p : Port} {n q : Note} {k : SlotIx}

theorem coalesces_iff {r : Reason} {kind : Kind} :
    coalesces r kind = true ↔ r = .stale ∨ r = .retired ∨ r = .orphaned ∨ (r = .newValue ∧ kind = .state) := by
  cases r <;> simp [coalesces]

theorem sameMatter_iff :
    sameMatter n q = true ↔ q.reason = n.reason ∧ q.slot = n.slot ∧ q.identifier = n.identifier ∧ q.isSealed = false := by
  simp [sameMatter, and_assoc]

/-- A note folded in marks the queued one; a NEW_VALUE note also brings its sequence number and its REPLY (R76). -/
theorem fold_eq (q n : Note) :
    q.fold n =
      { q with coalesced := true, sequence := if n.reason = .newValue then n.sequence else q.sequence
               reply := if n.reason = .newValue then q.reply || n.reply else q.reply } := by
  unfold Note.fold
  split
  · next h => simp [h]
  all_goals next h => simp [h]

/-- The note is folded into the first queued note of the same matter, which keeps its place. -/
theorem foldInto_of_split {before after : List Note} (hb : ∀ x ∈ before, sameMatter n x = false)
    (hq : sameMatter n q = true) : foldInto n (before ++ q :: after) = before ++ q.fold n :: after := by
  induction before with
  | nil => exact if_pos hq
  | cons x xs ih =>
    have hx : ¬sameMatter n x = true := by simp [hb x]
    rw [List.cons_append, foldInto, if_neg hx, ih fun y hy => hb y (List.mem_cons_of_mem x hy), List.cons_append]

/-- Does a note coalesce with one that the port has queued: test 2 of R75? -/
def folds (s : State) (p : Port) (n : Note) : Bool :=
  coalesces n.reason (s.slot n.slot).config.kind && (s.noteUnit p).queue.any (sameMatter n)

theorem appendNote_of_closed (h : (s.noteUnit p).delivery = .closed) : s.appendNote p n = s := by
  simp [State.appendNote, appendTest, h]

theorem appendNote_of_folds (hd : (s.noteUnit p).delivery = .delivering) (h : folds s p n = true) :
    s.appendNote p n = s.modNotes p fun m => { m with queue := foldInto n m.queue } := by
  have test : appendTest (s.noteUnit p) (s.slot n.slot).config.kind n = .folded := by
    rw [appendTest, if_neg (by simp [hd])]
    exact if_pos h
  simp only [State.appendNote, test]

/-- Behind test 2 the outcome is decided by the queue alone: a LOST note in it, and its length. -/
theorem appendTest_of_not_folds (hd : (s.noteUnit p).delivery = .delivering) (h : folds s p n = false) :
    appendTest (s.noteUnit p) (s.slot n.slot).config.kind n =
      if lostPending (s.noteUnit p).queue then .discarded
      else if 15 ≤ (s.noteUnit p).queue.length then .overflowed else .placed := by
  have notFolded : ¬(coalesces n.reason (s.slot n.slot).config.kind && (s.noteUnit p).queue.any (sameMatter n)) = true :=
    Bool.eq_false_iff.mp h
  rw [appendTest, if_neg (by simp [hd]), if_neg notFolded]
  rfl

theorem lostPending_iff {l : List Note} : lostPending l = true ↔ ∃ x ∈ l, x.reason = .lost := by simp [lostPending]

end Append

/-- Settles O29: the tests of R75 in their order, closed, folded, LOST present, full, placed. -/
theorem noteAppendOutcomes : Obligations.NoteAppendOutcomes := by
  intro s p n m foldable same lost folded lostNote withQueue
  refine ⟨appendNote_of_closed, fun hd => ⟨fun hfold before q after hq hbefore hsame => ?_, fun hno => ?_⟩⟩
  · have coalesced : coalesces n.reason (s.slot n.slot).config.kind = true := coalesces_iff.mpr hfold
    have match_q : sameMatter n q = true := sameMatter_iff.mpr hsame
    have first : ∀ x ∈ before, sameMatter n x = false := fun x hx =>
      Bool.eq_false_iff.mpr fun h => hbefore x hx (sameMatter_iff.mp h)
    have present : (s.noteUnit p).queue.any (sameMatter n) = true :=
      List.any_eq_true.mpr ⟨q, by simp [show (s.noteUnit p).queue = _ from hq], match_q⟩
    have queue : foldInto n (s.noteUnit p).queue = before ++ folded q :: after := by
      rw [show (s.noteUnit p).queue = _ from hq, foldInto_of_split first match_q, fold_eq]
    rw [appendNote_of_folds hd (by simp [folds, coalesced, present]), State.modNotes, queue]
  · have notFolded : folds s p n = false := by
      rw [folds, Bool.and_eq_false_iff]
      refine hno.imp (fun h => Bool.eq_false_iff.mpr fun c => h (coalesces_iff.mp c)) fun h => ?_
      exact List.any_eq_false.mpr fun x hx c => h x hx (sameMatter_iff.mp c)
    have test := appendTest_of_not_folds hd notFolded
    refine ⟨fun hl => ?_, fun hl hlen => ?_, fun hl hlen => ?_⟩
    · rw [if_pos (lostPending_iff.mpr hl)] at test
      simp only [State.appendNote, test]
    · rw [if_neg (fun h => hl (lostPending_iff.mp h)), if_neg (Nat.not_le.mpr hlen)] at test
      simp only [State.appendNote, test]
      rfl
    · rw [if_neg (fun h => hl (lostPending_iff.mp h)), if_pos hlen] at test
      simp only [State.appendNote, test]
      rfl

end Sys2Proof.Notes
end

section
namespace Sys2Proof.Notes
open Sys2Proof Sys2Proof.Machine Sys2Proof.Publication Sys2Proof.Views

/-! ### The Notification Unit's part of a landing (R71, R74) -/

section Landing
variable {s : State} {k : SlotIx}

/-- One note to each port of a set, where every port has room and no note to coalesce with. -/
theorem appendEach_of_fresh {ps : PortSet} {f : Port → Note}
    (h : ∀ q, ps.has q = true → s.roomFor q = true ∧ ∀ m ∈ (s.noteUnit q).queue, sameMatter (f q) m = false) :
    s.appendEach ps f = s.noted (fun q => ps.has q) f := by
  refine foldl_noteUnits (u := toldUnit s ps f) fun t q hq => ?_
  unfold toldUnit
  by_cases hs : ps.has q = true
  · obtain ⟨hroom, hfresh⟩ := h q hs
    have room : t.roomFor q = true := by rwa [State.roomFor, hq]
    rw [if_pos hs, if_pos hs, appendNote_of_fresh (by rwa [hq]) room, State.modNotes, hq]
  · rw [if_neg hs, if_neg hs, ← hq, State.noteUnit, PerPort.set_get_self]

theorem delivering_of_roomFor {q : Port} (h : s.roomFor q = true) : (s.noteUnit q).delivery = .delivering := by
  simp only [State.roomFor, Bool.and_eq_true, beq_iff_eq] at h
  obtain ⟨⟨delivering, -⟩, -⟩ := h
  exact delivering

/-- A served requester with room is DELIVERING, so it is told. -/
theorem toldOf_of_room {served : PortSet} (h : ∀ q, served.has q = true → s.roomFor q = true) :
    s.toldOf k served = PerPort.ofFn fun q => s.subscribes k q || served.has q := by
  refine congrArg PerPort.ofFn (funext fun q => ?_)
  by_cases hs : served.has q = true
  · simp [hs, delivering_of_roomFor (h q hs)]
  · simp [hs]

theorem notifyLanding_of_served {l : Landing} {served : PortSet} (hf : s.flight = some l) (hs : l.served = some served)
    (hn : l.notified = false) :
    notifyLanding s =
      (((s.modSlot l.offer.slot fun r =>
          { r with missed := r.missed.union r.unread, unread := s.toldOf l.offer.slot served }).appendEach
        (s.toldOf l.offer.slot served) fun q => s.newValueNote l.offer.slot (served.has q)).modFlight
          fun x => { x with notified := true }) := by
  simp [notifyLanding, hf, hs, hn]

theorem modFlight_of_some {l : Landing} (h : s.flight = some l) (f : Landing → Landing) :
    s.modFlight f = { s with flight := some (f l) } := by
  rw [State.modFlight, h]
  rfl

theorem exec_landingNotification {t : State} (hs : s.settled) (e : notifyLanding s = t) (hr : t.reports = s.reports) :
    exec .landingNotification s = .next t :=
  (event_next hs.1).trans (congrArg _ (by rw [e, State.settle_nil t (hr.trans hs.2)]))

end Landing

/-- Settles O19: every port told has room and no NEW_VALUE note of the slot, so each note is placed. -/
theorem landingTellsItsPorts : Obligations.LandingTellsItsPorts := by
  intro s l served hset hf hs hn k r told hroom
  have ports : s.toldOf k served = PerPort.ofFn told := toldOf_of_room fun q hq => (hroom q (by simp [told, hq])).1
  have placed : ∀ q, PortSet.has (PerPort.ofFn told) q = true → s.roomFor q = true ∧
      ∀ m ∈ (s.noteUnit q).queue, sameMatter (s.newValueNote k (served.has q)) m = false := by
    intro q hq
    obtain ⟨room, other⟩ := hroom q (by rwa [PortSet.has_ofFn] at hq)
    refine ⟨room, fun m hm => Bool.eq_false_iff.mpr fun same => ?_⟩
    obtain ⟨reason, slot, -⟩ := sameMatter_iff.mp same
    exact other m hm reason slot
  have members : (fun q => PortSet.has (PerPort.ofFn told) q) = told := funext fun q => PortSet.has_ofFn told q
  have tells := appendEach_of_fresh (s := s.modSlot k fun r =>
    { r with missed := r.missed.union r.unread, unread := PerPort.ofFn told }) placed
  refine exec_landingNotification hset (Eq.trans (notifyLanding_of_served hf hs hn) ?_) rfl
  rw [ports, tells, members]
  exact modFlight_of_some (l := l) (by exact hf) _

end Sys2Proof.Notes
end

section
namespace Sys2Proof.Notes
open Sys2Proof Sys2Proof.Machine Sys2Proof.Publication Sys2Proof.Views

/-! ### The enables of every port (R83) -/

/-- The enables of a Port Unit: NOTES and DONE. -/
def enablesOf (u : PortUnit) : Bool × Bool := (u.notesEnable, u.doneEnable)

/-- The enables of every port. -/
def enables (P : PerPort PortUnit) (p : Port) : Bool × Bool := enablesOf (P.get p)

theorem enables_eq_iff {s t : State} {p : Port} :
    enables t.ports p = enables s.ports p ↔
      (t.port p).notesEnable = (s.port p).notesEnable ∧ (t.port p).doneEnable = (s.port p).doneEnable := Prod.mk_inj

theorem enables_off_iff {t : State} {p : Port} :
    enables t.ports p = (false, false) ↔ (t.port p).notesEnable = false ∧ (t.port p).doneEnable = false := Prod.mk_inj

theorem enables_set (P : PerPort PortUnit) (q : Port) (u : PortUnit) :
    enables (P.set q u) = Function.update (enables P) q (enablesOf u) := by
  funext p
  rw [enables, PerPort.get_set, Function.update_apply]
  split <;> rfl

theorem enables_ofFn {P : PerPort PortUnit} {f : Port → PortUnit} (h : ∀ p, enablesOf (f p) = enablesOf (P.get p)) :
    enables (PerPort.ofFn f) = enables P :=
  funext fun p => by rw [enables, PerPort.get_ofFn, h, enables]

/-! ### Operations that keep them: the command unit and the Health Unit

Every operation of the part but two is made of parts that keep the enables. Its lemma walks its branches and finds the lemmas of
its parts in the simp set: `ports_…` where the Port Units stay as they are, `enables_…` where only other records of them change. -/

section Kept
variable (s : State)

theorem enables_modPort {q : Port} {f : PortUnit → PortUnit} (h : enablesOf (f (s.port q)) = enablesOf (s.port q)) :
    enables (s.modPort q f).ports = enables s.ports := by
  rw [State.modPort, enables_set, h]
  exact Function.update_eq_self q _

/-- A visit to every member of a list keeps the enables where each single visit does. -/
theorem enables_foldl {α : Type} {f : State → α → State} (h : ∀ t x, enables (f t x).ports = enables t.ports)
    (l : List α) :
    enables (l.foldl f s).ports = enables s.ports :=
  foldl_keeps (P := fun u => enables u.ports = enables s.ports) (fun u x hu => (h u x).trans hu) l s rfl

/-- An operation whose frame does not name the Port Units. -/
theorem ports_of_frame {s t u : State} (h : t = u) (hp : u.ports = s.ports) : t.ports = s.ports := h ▸ hp

/-! The command unit, reports and free choices. -/

@[simp] theorem enables_post (p : Port) (r : Result) : enables (s.post p r).ports = enables s.ports :=
  enables_modPort s (by split <;> rfl)

@[simp] theorem enables_setPhase (p : Port) (ph : Phase) : enables (s.setPhase p ph).ports = enables s.ports :=
  enables_modPort s rfl

@[simp] theorem enables_acceptWrite (p : Port) (c : Command) (n : Byte) : enables (s.acceptWrite p c n).ports = enables s.ports :=
  enables_modPort s rfl

@[simp] theorem enables_refuse (p : Port) (r : Result) : enables (s.refuse p r).ports = enables s.ports := enables_post s p r

@[simp] theorem enables_overrun (p : Port) : enables (s.overrun p).ports = enables s.ports :=
  enables_modPort (q := p) (f := fun u => { u with unit := { u.unit with overrun := true } }) s rfl

@[simp] theorem ports_pick (n : Nat) : (s.pick n).2.ports = s.ports := ports_of_frame (s.pick_frame n) rfl

@[simp] theorem ports_shuffle {α : Type} (l : List α) : (s.shuffle l).2.ports = s.ports :=
  ports_of_frame (s.shuffle_frame l) rfl

@[simp] theorem enables_completeAll (c : Command) : enables (s.completeAll c).ports = enables s.ports := by
  rw [State.completeAll_eq]
  exact enables_ofFn fun p => by split <;> rfl

@[simp] theorem enables_viewsGone (k : SlotIx) : enables (s.viewsGone k).ports = enables s.ports := by
  rw [viewsGone_eq]
  exact enables_ofFn fun p => by unfold unitGone; dsimp only; split <;> rfl

/-! The Health Unit's taking of reports. -/

@[simp] theorem enables_answerDetached (p : Port) : enables (s.answerDetached p).ports = enables s.ports := by
  unfold State.answerDetached
  split
  · split
    · rfl
    · exact enables_post s p _
  · rfl

@[simp] theorem enables_markDetaching (p : Port) (cause : DetachCause) :
    enables (s.markDetaching p cause).ports = enables s.ports := enables_answerDetached _ p

@[simp] theorem ports_takeDisturbance (p : Port) : (s.takeDisturbance p).ports = s.ports :=
  ports_of_frame (s.takeDisturbance_frame p) rfl

@[simp] theorem enables_takePenalty (p : Port) (n : Nat) : enables (s.takePenalty p n).ports = enables s.ports := by
  unfold State.takePenalty
  dsimp only
  split
  · rfl
  · split
    · split <;> simp
    · split <;> simp
    · rfl
    · simp

@[simp] theorem ports_takeCredit (p : Port) : (s.takeCredit p).ports = s.ports := by
  unfold State.takeCredit
  dsimp only
  split <;> rfl

@[simp] theorem enables_takeReport (r : Report) : enables (s.takeReport r).ports = enables s.ports := by
  unfold State.takeReport
  split <;> simp

theorem enables_takeReportsOf (rs : List Report) (p : Port) :
    enables (s.takeReportsOf rs p).ports = enables s.ports := by
  unfold State.takeReportsOf
  dsimp only
  split
  · exact enables_foldl s enables_takeReport _
  · rw [enables_foldl _ enables_takeReport, ports_pick]

@[simp] theorem ports_waitToDetach (ps : List Port) : (s.waitToDetach ps).ports = s.ports := by
  cases ps <;> rfl

@[simp] theorem enables_settle : enables s.settle.ports = enables s.ports := by
  unfold State.settle
  rw [ports_waitToDetach]
  exact enables_foldl _ (fun u p => enables_takeReportsOf u _ p) _

end Kept
end Sys2Proof.Notes
end

section
namespace Sys2Proof.Notes
open Sys2Proof Sys2Proof.Machine Sys2Proof.Publication Sys2Proof.Views

/-! ### Operations that keep the enables: the exchange, notes, landings and holds -/

section Kept
variable (s : State)

/-! Freezing and the watch. -/

@[simp] theorem ports_dueToRipe : s.dueToRipe.ports = s.ports := ports_of_frame s.dueToRipe_frame rfl

@[simp] theorem enables_becomeFrozen : enables s.becomeFrozen.ports = enables s.ports := by
  simp [State.becomeFrozen]

@[simp] theorem enables_callFreeze : enables s.callFreeze.ports = enables s.ports := by
  unfold State.callFreeze
  split
  · split <;> simp
  · dsimp only
    split
    · split <;> simp
    all_goals rfl
  all_goals rfl

@[simp] theorem enables_drainNext : enables s.drainNext.ports = enables s.ports := by
  unfold State.drainNext
  split
  · simp
  · split <;> simp

@[simp] theorem enables_landingEnded : enables s.landingEnded.ports = enables s.ports := by
  unfold State.landingEnded
  split
  · rfl
  · split
    · simp
    · split <;> simp
    all_goals rfl

@[simp] theorem enables_offerAct (kind : ActKind) (detail : Bool) (k : SlotIx) (src : Source) :
    enables (s.offerAct kind detail k src).ports = enables s.ports := by
  unfold State.offerAct
  split
  · dsimp only
    split <;> simp
  · rfl

/-! Notes. -/

@[simp] theorem ports_appendNote (p : Port) (n : Note) : (s.appendNote p n).ports = s.ports :=
  ports_of_frame (s.appendNote_frame p n) rfl

@[simp] theorem ports_appendEach (ps : PortSet) (n : Port → Note) : (s.appendEach ps n).ports = s.ports :=
  ports_of_frame (s.appendEach_frame ps n) rfl

@[simp] theorem ports_tell (ps : PortSet) (r : Reason) (k : SlotIx) : (s.tell ps r k).ports = s.ports :=
  ports_of_frame (s.tell_frame ps r k) rfl

@[simp] theorem ports_tellDropped (src : Source) (k : SlotIx) : (s.tellDropped src k).ports = s.ports :=
  ports_of_frame (s.tellDropped_frame src k) rfl

@[simp] theorem ports_timeOutRequesters (k : SlotIx) : (s.timeOutRequesters k).ports = s.ports :=
  ports_of_frame (s.timeOutRequesters_frame k) rfl

@[simp] theorem enables_popNote (p : Port) : enables (s.popNote p).ports = enables s.ports := by
  unfold State.popNote
  split
  · exact enables_modPort s rfl
  · exact enables_modPort (f := fun u => { u with latch := _, lastRead := _ }) s rfl

/-! The Commit Unit. -/

@[simp] theorem ports_ripen (k : SlotIx) : (s.ripen k).ports = s.ports := ports_of_frame (s.ripen_frame k) rfl

/-- A landing keeps the enables where leaving its place and staying there do. -/
theorem enables_tryLanding (o : Offer) (detail : Bool) {gone stays : State → State}
    (hg : ∀ t, (gone t).ports = t.ports) (hs : ∀ t, (stays t).ports = t.ports) :
    enables (s.tryLanding o detail gone stays).ports = enables s.ports := by
  have records : (s.recordLanding o detail).ports = s.ports := ports_of_frame (s.recordLanding_frame o detail) rfl
  have begins : ((gone (s.recordLanding o detail)).beginLanding o).ports = s.ports := (hg _).trans records
  rcases s.tryLanding_cases o detail gone stays with ⟨-, e⟩ | ⟨-, e⟩ | ⟨-, e⟩
  · rw [e, begins]
  · rw [e, enables_callFreeze, begins]
  · rw [e, enables_becomeFrozen, hs, records]

@[simp] theorem enables_commitOnEmpty (k : SlotIx) : enables (s.commitOnEmpty k).ports = enables s.ports := by
  unfold State.commitOnEmpty
  split
  · rfl
  · split
    · split
      · rfl
      · exact enables_tryLanding s _ true (fun _ => rfl) fun _ => ports_ripen _ k
    all_goals simp [State.toDue]

@[simp] theorem enables_takeHead (o : Offer) (rest : List Offer) : enables (s.takeHead o rest).ports = enables s.ports := by
  unfold State.takeHead
  split
  · exact enables_tryLanding s o false (fun _ => rfl) fun _ => rfl
  · rfl

@[simp] theorem enables_takeDue (o : Offer) (rest : List Offer) : enables (s.takeDue o rest).ports = enables s.ports :=
  enables_tryLanding s o true (fun _ => rfl) fun _ => rfl

@[simp] theorem enables_takeRipe (k : SlotIx) : enables (s.takeRipe k).ports = enables s.ports := by
  unfold State.takeRipe
  split
  · rfl
  · exact enables_tryLanding s _ true (fun _ => rfl) fun _ => rfl

@[simp] theorem enables_takeDrain (k : SlotIx) : enables (s.takeDrain k).ports = enables s.ports := by
  unfold State.takeDrain
  split
  · simp
  · dsimp only
    split <;> simp

@[simp] theorem enables_takeStep (i : Item) : enables (s.takeStep i).ports = enables s.ports := by
  unfold State.takeStep
  split
  · split <;> simp
  · split
    · split_ifs <;> simp
    · simp

@[simp] theorem enables_takeNext : enables s.takeNext.ports = enables s.ports := by
  unfold State.takeNext
  split
  · rfl
  · split
    · split
      · simp
      · split <;> simp
    · split <;> simp
    all_goals rfl

@[simp] theorem enables_completeRetirement (k : SlotIx) : enables (s.completeRetirement k).ports = enables s.ports := by
  simp [State.completeRetirement]

@[simp] theorem enables_testRetirement (k : SlotIx) : enables (s.testRetirement k).ports = enables s.ports := by
  unfold State.testRetirement
  split <;> simp

@[simp] theorem ports_discardPublications (p : Port) : (s.discardPublications p).ports = s.ports := rfl

/-! Holds and views. -/

@[simp] theorem enables_endHold (p : Port) : enables (s.endHold p).ports = enables s.ports := by
  unfold State.endHold State.holdLeft
  split
  · rfl
  · split <;> simp

@[simp] theorem ports_reclaimDue (k : SlotIx) : (s.reclaimDue k).ports = s.ports := by
  unfold State.reclaimDue
  split <;> rfl

@[simp] theorem ports_capture (p : Port) (k : SlotIx) : (s.capture p k).ports = s.ports := rfl

@[simp] theorem enables_grantView (p : Port) (k : SlotIx) : enables (s.grantView p k).ports = enables s.ports := by
  simp [State.grantView]

@[simp] theorem enables_takeView (p : Port) (n : Byte) : enables (takeView p n s).ports = enables s.ports := by
  unfold takeView State.refreshView
  split
  · simp
  · split_ifs <;> simp

@[simp] theorem enables_grantWaiting (p : Port) : enables (s.grantWaiting p).ports = enables s.ports := by
  unfold State.grantWaiting
  split
  · split <;> simp
  · split <;> simp
  all_goals rfl

@[simp] theorem enables_takeRelease (p : Port) : enables (takeRelease p s).ports = enables s.ports := by
  unfold takeRelease
  split <;> simp

@[simp] theorem enables_expireHold (p : Port) : enables (expireHold p s).ports = enables s.ports := by
  unfold expireHold
  split
  · rfl
  · split <;> simp

@[simp] theorem enables_takeNote (p : Port) : enables (takeNote p s).ports = enables s.ports := by
  unfold takeNote
  dsimp only
  split_ifs <;> simp

end Kept
end Sys2Proof.Notes
end

section
namespace Sys2Proof.Notes
open Sys2Proof Sys2Proof.Machine Sys2Proof.Publication Sys2Proof.Views

/-! ### Operations that keep the enables: what events and commands do -/

section Kept
variable (s : State)

/-! Requests, the parts of a landing, the time base. -/

@[simp] theorem enables_takePublish (p : Port) (n : Byte) : enables (takePublish p n s).ports = enables s.ports := by
  unfold takePublish
  split <;> simp

@[simp] theorem ports_beginRound (p : Port) (k : SlotIx) : (s.beginRound p k).ports = s.ports := by
  unfold State.beginRound
  dsimp only
  split <;> simp

@[simp] theorem enables_takeRequest (p : Port) (n : Byte) : enables (takeRequest p n s).ports = enables s.ports := by
  unfold takeRequest
  split
  · simp
  · split <;> simp

@[simp] theorem ports_expireDeadline (k : SlotIx) : (expireDeadline k s).ports = s.ports := by
  unfold expireDeadline
  split
  · rfl
  · dsimp only
    split_ifs <;> simp

@[simp] theorem ports_serveLanding : (serveLanding s).ports = s.ports := by
  unfold serveLanding
  split
  · rfl
  · split <;> rfl

@[simp] theorem ports_notifyLanding : (notifyLanding s).ports = s.ports := by
  unfold notifyLanding
  split
  · rfl
  · split
    · rfl
    · split <;> simp

@[simp] theorem ports_timeLanding : (timeLanding s).ports = s.ports := by
  unfold timeLanding
  split
  · rfl
  · split <;> rfl

@[simp] theorem enables_endLanding : enables (endLanding s).ports = enables s.ports := by
  have ends (t : State) (k : SlotIx) : enables (t.landingOver k).ports = enables t.ports := by
    rcases t.landingOver_cases k with e | ⟨n, e | ⟨p, e | e⟩⟩ <;> simp [e]
  unfold endLanding
  split
  · rfl
  · split
    · exact ends _ _
    · rfl

@[simp] theorem ports_tick : (tick s).ports = s.ports := by
  unfold tick
  split_ifs <;> rfl

@[simp] theorem enables_takeSetTime (p : Port) : enables (takeSetTime p s).ports = enables s.ports := by
  simp [takeSetTime, State.moveTimers]

@[simp] theorem ports_expireFreshness (k : SlotIx) : (expireFreshness k s).ports = s.ports := by
  unfold expireFreshness
  split
  · rfl
  · split <;> simp

/-! The Slot Table's commands. -/

@[simp] theorem enables_takeConfigure (p : Port) (n : Byte) : enables (takeConfigure p n s).ports = enables s.ports := by
  unfold takeConfigure
  split <;> simp

@[simp] theorem ports_dropEntries (k : SlotIx) : (s.dropEntries k).ports = s.ports :=
  foldl_keeps (P := fun u => u.ports = s.ports) (fun u (o : Offer) hu => (ports_tellDropped u o.source k).trans hu) _ _ rfl

@[simp] theorem ports_dropParked (k : SlotIx) : (s.dropParked k).ports = s.ports := by
  unfold State.dropParked
  dsimp only
  split <;> simp

@[simp] theorem ports_retireSteps (k : SlotIx) : (s.retireSteps k).ports = s.ports := by simp [State.retireSteps]

@[simp] theorem enables_takeRetire (p : Port) (n : Byte) : enables (takeRetire p n s).ports = enables s.ports := by
  unfold takeRetire
  split <;> simp

/-! The Health Unit. -/

@[simp] theorem ports_freeToken (p : Port) : (s.freeToken p).ports = s.ports := by
  unfold State.freeToken
  split <;> rfl

@[simp] theorem ports_detachRequests (p : Port) : (s.detachRequests p).ports = s.ports := by
  unfold State.detachRequests
  dsimp only
  refine foldl_keeps (P := fun u => u.ports = s.ports) (fun u k hu => (ports_timeOutRequesters u k).trans hu) _ _ ?_
  rw [ports_shuffle, State.mapSlots_ports]

@[simp] theorem ports_expelOutside (p : Port) : (s.expelOutside p).ports = s.ports := by
  unfold State.expelOutside
  split <;> rfl

@[simp] theorem enables_finishExpels (p : Port) : enables (s.finishExpels p).ports = enables s.ports := by
  refine enables_foldl s (fun u q => ?_) _
  split
  · split_ifs <;> simp
  all_goals rfl

@[simp] theorem enables_detachOrphan (p : Port) : enables (s.detachOrphan p).ports = enables s.ports := by
  have orphans (l : List SlotIx) (t : State) : enables (l.foldl State.orphan t).ports = enables t.ports :=
    enables_foldl t (fun u k => by simp [State.orphan]) l
  simp [State.detachOrphan, orphans]

@[simp] theorem enables_detachStep (p : Port) (st : DetachStep) : enables (s.detachStep p st).ports = enables s.ports := by
  cases st <;> simp [State.detachStep, State.detachNotes, State.flushNotes]

theorem enables_runDetach (p : Port) (upTo : DetachStep) (fuel : Nat) (st : DetachStep) :
    enables (s.runDetach p upTo fuel st).ports = enables s.ports := by
  induction fuel generalizing s st with
  | zero => rfl
  | succ fuel ih =>
    unfold State.runDetach
    split
    · rfl
    · split
      · simp
      · rw [ih, enables_settle, enables_detachStep]

@[simp] theorem enables_runDetachment (p : Port) (upTo : DetachStep) :
    enables (runDetachment p upTo s).ports = enables s.ports := by
  unfold runDetachment
  split
  · split
    · exact enables_runDetach s p upTo 6 _
    · rfl
  · split
    · split
      · exact enables_runDetach _ p upTo 6 _
      · rfl
    · rfl

@[simp] theorem enables_takeExpel (p : Port) : enables (takeExpel p s).ports = enables s.ports := by
  unfold takeExpel
  split
  · simp
  · split_ifs
    · simp
    · simp
    · split <;> simp

@[simp] theorem enables_takeRejoinPolicy (p : Port) : enables (takeRejoinPolicy p s).ports = enables s.ports := by
  unfold takeRejoinPolicy
  dsimp only
  split
  · simp
  · split <;> simp

@[simp] theorem enables_takeRejoin (p : Port) : enables (takeRejoin p s).ports = enables s.ports := by
  unfold takeRejoin
  split <;> simp

@[simp] theorem ports_endQuiet (p : Port) : (endQuiet p s).ports = s.ports := by
  unfold endQuiet
  dsimp only
  split
  · rfl
  · split_ifs <;> rfl

/-! The commands of the Control Unit, the View Unit and the Watch Unit. -/

@[simp] theorem enables_takeClaim (p : Port) : enables (takeClaim p s).ports = enables s.ports := by
  unfold takeClaim
  split
  · simp
  · split
    · split <;> simp
    · simp

@[simp] theorem enables_takeYield (p : Port) : enables (takeYield p s).ports = enables s.ports := by
  unfold takeYield
  split <;> simp

@[simp] theorem enables_takeFreeze (p : Port) : enables (takeFreeze p s).ports = enables s.ports := by
  unfold takeFreeze
  split <;> simp

@[simp] theorem enables_takeStepCommand (p : Port) : enables (takeStepCommand p s).ports = enables s.ports := by
  unfold takeStepCommand
  split
  · split
    · rfl
    · split <;> simp
  all_goals simp

@[simp] theorem enables_takeResume (p : Port) : enables (takeResume p s).ports = enables s.ports := by
  unfold takeResume
  split
  · split <;> simp
  all_goals simp

@[simp] theorem enables_takeInspect (p : Port) : enables (takeInspect p s).ports = enables s.ports := by
  unfold takeInspect
  split
  · simp
  · split
    · simp
    · split
      · simp
      · exact (enables_post _ p _).trans (enables_modPort s rfl)

@[simp] theorem enables_takeCancelHead (p : Port) : enables (takeCancelHead p s).ports = enables s.ports := by
  unfold takeCancelHead
  split
  · simp
  · split
    · simp
    · dsimp only
      split <;> simp

@[simp] theorem enables_takeHoldTimeout (p : Port) : enables (takeHoldTimeout p s).ports = enables s.ports := by
  unfold takeHoldTimeout
  dsimp only
  split <;> simp

@[simp] theorem enables_takeArm (p : Port) : enables (takeArm p s).ports = enables s.ports := by
  unfold takeArm
  dsimp only
  split <;> simp

@[simp] theorem enables_takeDisarm (p : Port) : enables (takeDisarm p s).ports = enables s.ports := by
  simp [takeDisarm]

@[simp] theorem enables_takeReadCapture (p : Port) : enables (takeReadCapture p s).ports = enables s.ports := by
  unfold takeReadCapture
  split
  · simp
  · exact (enables_post _ p _).trans (enables_modPort s rfl)

/-! The command unit, for every command but RESET_PORT. -/

/-- Every command, by the lemma of its owning block. -/
@[simp] theorem enables_takeCommand (c : Command) (p : Port) (n : Byte) :
    enables (takeCommand c p n s).ports = enables s.ports := by
  have token {f : State → State} (h : enables (f s).ports = enables s.ports) :
      enables (s.ifToken p f).ports = enables s.ports := by
    unfold State.ifToken
    split
    · exact h
    · simp
  have restarts : enables (s.ifToken p takeRestart).ports = enables s.ports := token rfl
  cases c <;> simp [takeCommand, token, restarts]

theorem enables_writeCommand {c : Command} (hc : c ≠ .resetPort) (p : Port) (n : Byte) :
    enables (s.writeCommand p c n).ports = enables s.ports := by
  rw [State.writeCommand, if_neg hc]
  dsimp only
  split_ifs <;> simp

theorem enables_writeUndefined (p : Port) : enables (s.writeUndefined p).ports = enables s.ports := by
  unfold State.writeUndefined
  split
  · simp
  · exact enables_modPort (f := fun u => { u with unit := u.unit.posted .badCommand }) s rfl

theorem enables_writeStored {off : BitVec 6} (h : storedOffset off = true) (p : Port) (w : Word) :
    enables (s.writeStored p off w).ports = enables s.ports := by
  rcases storedOffset_iff.mp h with hport | hfilter
  · obtain ⟨-, -, hnotes, hdone, -⟩ := storeWord_sameRecords (s.port p) off.toNat w
    rw [writeStored_of_portStored hport]
    exact enables_modPort s (Prod.ext hnotes hdone)
  · rw [writeStored_of_filterStored hfilter]
    rfl

@[simp] theorem enables_finishResetPort (p : Port) : enables (finishResetPort p s).ports = enables s.ports := by
  unfold finishResetPort
  split <;> simp

/-! A restart. -/

@[simp] theorem enables_beginRestart : enables (beginRestart s).ports = enables s.ports := by
  have expels (t : State) : enables t.completeExpels.ports = enables t.ports := by
    refine enables_foldl t (fun u q => ?_) _
    split <;> simp
  have gone (l : List SlotIx) : enables (l.foldl State.viewsGone s).ports = enables s.ports := enables_foldl s enables_viewsGone l
  unfold beginRestart
  split
  · simp [expels, gone]
  · rfl

@[simp] theorem enables_endRestart : enables (endRestart s).ports = enables s.ports := by
  have releases (t : State) (p : Port) : enables (t.release p).settle.ports = enables t.ports := by
    unfold State.release
    split <;> simp
  unfold endRestart
  split
  · dsimp only
    rw [enables_foldl _ releases, ports_shuffle, enables_completeAll]
  · rfl

end Kept
end Sys2Proof.Notes
end

section
namespace Sys2Proof.Notes
open Sys2Proof Sys2Proof.Machine Sys2Proof.Publication Sys2Proof.Views

/-! ### The events that set them (R83, R181, R184) -/

section Attention
variable {s t : State} {p : Port}

theorem enables_writeEnables (w : Word) :
    enables (s.writeEnables p w).ports = Function.update (enables s.ports) p (w.getLsbD 0, w.getLsbD 1) :=
  enables_set ..

/-- A port reset sets the enables of its port off (R184). -/
theorem enables_resetPort (b : Option Busy) :
    enables (s.resetPort p b).ports = Function.update (enables s.ports) p (false, false) := by
  have views (u : State) : enables (u.resetViewAndNotes p).ports = enables u.ports := by
    unfold State.resetViewAndNotes State.resetNotes State.flushNotes
    dsimp only
    split_ifs <;> simp
  simp only [State.resetPort, State.report_ports, ports_freeToken, State.mapSlots_ports, State.withdraw_ports, views]
  exact enables_set ..

theorem enables_deviceReset : enables s.deviceReset.ports = fun _ => (false, false) :=
  funext fun p => congrArg enablesOf (PerPort.get_fill PortUnit.reset p)

/-- What the enables of every port are after an event, from `E` to `E'`, by the event. -/
inductive EnablesAfter (c : Instr) (E E' : Port → Bool × Bool) : Prop
  | kept (h : E' = E)
  | written (q : Port) (w : Word) (hc : c = .attentionEnableWrite q w)
      (h : E' = Function.update E q (w.getLsbD 0, w.getLsbD 1))
  | allOff (hc : c = .deviceReset) (h : E' = fun _ => (false, false))
  | portOff (q : Port) (hc : c = .portReset q ∨ ∃ n, c = .resetPort q n) (h : E' = Function.update E q (false, false))

/-- An event does not take place, or does what its meaning does, and its reports are taken. -/
theorem enables_event {f : State → State} (h : event f s = .next t) :
    enables t.ports = enables s.ports ∨ enables t.ports = enables (f s).ports := by
  cases h
  split
  · exact .inl rfl
  · exact .inr (enables_settle _)

theorem enables_cycle {f : State → State} (h : cycle p f s = .next t) :
    enables t.ports = enables s.ports ∨ enables t.ports = enables (f s).ports := by
  refine (enables_event h).elim .inl fun e => ?_
  split at e
  · exact .inl e
  · exact .inr e

variable {c : Instr}

theorem kept_of_event {f : State → State} (hf : ∀ u, enables (f u).ports = enables u.ports) (h : event f s = .next t) :
    EnablesAfter c (enables s.ports) (enables t.ports) :=
  .kept ((enables_event h).elim id fun e => e.trans (hf s))

theorem kept_of_cycle {f : State → State} (hf : ∀ u, enables (f u).ports = enables u.ports) (h : cycle p f s = .next t) :
    EnablesAfter c (enables s.ports) (enables t.ports) :=
  .kept ((enables_cycle h).elim id fun e => e.trans (hf s))

theorem commandCode_append (code n : Byte) : commandCode (code ++ n) = code := by
  refine BitVec.eq_of_getLsbD_eq fun i hi => ?_
  rw [commandCode, BitVec.getLsbD_extractLsb', BitVec.getLsbD_append]
  simp [hi]

/-- Each row of the opcode table keeps the enables, but for the write of ATTENTION ENABLE and the resets. -/
theorem enables_exec (hc : c.wellFormed = true) (h : exec c s = .next t) :
    EnablesAfter c (enables s.ports) (enables t.ports) := by
  cases c with
  | attentionEnableWrite p w =>
    exact (enables_cycle (f := fun u => u.writeEnables p w) h).elim .kept fun e =>
      .written p w rfl (e.trans (enables_writeEnables w))
  | deviceReset =>
    cases h
    exact .allOff rfl enables_deviceReset
  | portReset p =>
    change execPortReset p s = .next t at h
    unfold execPortReset at h
    split at h
    · cases h
      exact .kept rfl
    · exact (enables_event (f := fun u => u.resetPort p none) h).elim .kept fun e =>
        .portOff p (.inl rfl) (e.trans (enables_resetPort none))
  | resetPort p n =>
    refine (enables_cycle (f := fun u => u.writeCommand p .resetPort n) h).elim .kept fun e => ?_
    rw [State.writeCommand, if_pos rfl, State.writeResetPort] at e
    split at e
    · exact .kept e
    · exact .portOff p (.inr ⟨n, rfl⟩) (e.trans (enables_resetPort _))
  | undefinedCommand p code n =>
    have undefined : Command.ofCode (commandCode (code ++ n)) = none := by
      rw [commandCode_append]
      exact Option.isNone_iff_eq_none.mp hc
    refine kept_of_cycle (f := fun u => u.writeCommandWord p (code ++ n)) (fun u => ?_) h
    rw [State.writeCommandWord, undefined]
    exact enables_writeUndefined u p
  | registerWrite p off w =>
    have h0 : off ≠ 0#6 := by
      rintro rfl
      cases hc
    refine kept_of_cycle (f := fun u => if off = 0#6 then u.writeCommandWord p w else u.writeStored p off w) (fun u => ?_) h
    rw [if_neg h0]
    exact enables_writeStored u hc p w
  | resultRead p => exact kept_of_cycle (fun u => enables_modPort u rfl) h
  | timeLowRead p => exact kept_of_cycle (fun u => enables_modPort u rfl) h
  | noteTake p => exact kept_of_cycle (fun u => enables_takeNote u p) h
  | deviceResetRelease =>
    cases h
    exact .kept rfl
  | resetPortDone p => exact kept_of_event (fun u => enables_finishResetPort u p) h
  | takeNextValue => exact kept_of_event enables_takeNext h
  | landingService => exact kept_of_event (fun u => congrArg enables (ports_serveLanding u)) h
  | landingNotification => exact kept_of_event (fun u => congrArg enables (ports_notifyLanding u)) h
  | landingTimePart => exact kept_of_event (fun u => congrArg enables (ports_timeLanding u)) h
  | landingEnd => exact kept_of_event enables_endLanding h
  | viewGrant p => exact kept_of_event (fun u => enables_grantWaiting u p) h
  | holdExpiry p => exact kept_of_event (fun u => enables_expireHold u p) h
  | deadlineExpiry k => exact kept_of_event (fun u => congrArg enables (ports_expireDeadline u k)) h
  | freshnessExpiry k => exact kept_of_event (fun u => congrArg enables (ports_expireFreshness u k)) h
  | quietIntervalEnd p => exact kept_of_event (fun u => congrArg enables (ports_endQuiet u p)) h
  | detachment p upTo => exact kept_of_event (fun u => enables_runDetachment u p upTo) h
  | restartBegin => exact kept_of_event enables_beginRestart h
  | restartEnd => exact kept_of_event enables_endRestart h
  | timeBaseAdvance => exact kept_of_event (fun u => congrArg enables (ports_tick u)) h
  | _ p n => exact kept_of_cycle (fun u => enables_writeCommand u (by decide) p n) h

/-! ### The attention output (R82) -/

theorem enableWord_of_write (u : PortUnit) (w : Word) :
    PortUnit.enableWord { u with notesEnable := w.getLsbD 0, doneEnable := w.getLsbD 1 } = w &&& 3#16 := by
  refine BitVec.eq_of_getLsbD_eq fun i hi => ?_
  rw [PortUnit.enableWord, BitVec.getLsbD_append, BitVec.getLsbD_append]
  interval_cases i <;> simp

theorem attention_iff (hl : s.listens p) :
    s.attention p = true ↔
      ((s.port p).notesEnable = true ∧ (s.noteUnit p).queue ≠ []) ∨
        ((s.port p).doneEnable = true ∧ (s.port p).unit.done = true) := by
  obtain ⟨⟨hreset, -⟩, hline⟩ := hl
  simp [State.attention, State.takesCycles, State.attentionRequest, hreset, hline]

theorem exec_attentionEnableWrite (hl : s.listens p) (w : Word) :
    exec (.attentionEnableWrite p w) s = .next (s.writeEnables p w) := by
  obtain ⟨⟨hreset, hrep⟩, hline⟩ := hl
  have settles : (s.writeEnables p w).settle = s.writeEnables p w := State.settle_nil _ hrep
  exact (cycle_next (f := fun u => u.writeEnables p w) hreset hline).trans (congrArg _ settles)

/-- With the line high, PORT_RESET is its fall, and the port's records are reset (R182). -/
theorem exec_portReset (hl : s.listens p) :
    exec (.portReset p) s = .next (({ s with lineLow := s.lineLow.insert p } : State).resetPort p none).settle := by
  obtain ⟨⟨hreset, -⟩, hline⟩ := hl
  show execPortReset p s = _
  rw [execPortReset, if_neg (by simp [hline])]
  exact event_next (f := fun u => u.resetPort p none) hreset

theorem exec_resetPort (hl : s.listens p) (hh : s.inHand p .resetPort = false) (n : Byte) :
    exec (.resetPort p n) s = .next (s.resetPort p (some ⟨.resetPort, n, .taken⟩)).settle := by
  obtain ⟨⟨hreset, -⟩, hline⟩ := hl
  refine (cycle_next (f := fun u => u.writeCommand p .resetPort n) hreset hline).trans ?_
  rw [State.writeCommand, if_pos rfl, State.writeResetPort, hh]
  rfl

theorem enables_settle_resetPort (b : Option Busy) : enables (s.resetPort p b).settle.ports p = (false, false) := by
  rw [enables_settle, enables_resetPort, Function.update_self]

end Attention

/-- Settles O50: the write, the three resets, and every other row of the opcode table. -/
theorem attentionFollowsItsEnables : Obligations.AttentionFollowsItsEnables := by
  refine ⟨?_, ?_, fun c s t p hc h changed => ?_⟩
  · intro s p w hl t
    have unit : t.port p = { s.port p with notesEnable := w.getLsbD 0, doneEnable := w.getLsbD 1 } := PerPort.get_set_self ..
    refine ⟨exec_attentionEnableWrite hl w, ?_, ?_⟩
    · exact (congrArg PortUnit.enableWord unit).trans (enableWord_of_write _ w)
    · rw [attention_iff (s := t) hl, unit]
      rfl
  · intro s p n off
    refine ⟨⟨_, rfl, ?_⟩, fun hl => ⟨⟨_, exec_portReset hl, ?_⟩, fun hh => ⟨_, exec_resetPort hl hh n, ?_⟩⟩⟩
    · exact enables_off_iff.mp (congrFun enables_deviceReset p)
    · exact enables_off_iff.mp (enables_settle_resetPort none)
    · exact enables_off_iff.mp (enables_settle_resetPort _)
  · have moved : enables t.ports p ≠ enables s.ports p := fun e => by
      obtain ⟨notes, done⟩ := enables_eq_iff.mp e
      exact changed.elim (fun h => h notes) fun h => h done
    have only {q : Port} {e : Bool × Bool} (h : enables t.ports = Function.update (enables s.ports) q e) : p = q := by
      by_contra hne
      exact moved (by rw [h, Function.update_of_ne hne])
    cases enables_exec hc h with
    | kept e => exact absurd (congrFun e p) moved
    | written q w e he => exact .inl ⟨w, only he ▸ e⟩
    | allOff e he => exact .inr ⟨.inl e, enables_off_iff.mp (congrFun he p)⟩
    | portOff q e he =>
      obtain rfl := only he
      exact .inr ⟨.inr e, enables_off_iff.mp (by rw [he, Function.update_self])⟩

end Sys2Proof.Notes
end

section
namespace Sys2Proof.Machine
open Sys2Proof Sys2Proof.Publication

/-! ### The law of requesters on one slot record (R90) -/

/-- R90 for one record: the owner is no requester, and the deadline is armed exactly while there is one. -/
def Slot.RoundLaw (r : Slot) : Prop :=
  r.requesters.has r.config.owner = false ∧ (r.deadline.isSome = true ↔ r.requesters.isEmpty = false)

theorem State.requesterLaw_iff {s : State} : s.RequesterLaw ↔ ∀ k, (s.slot k).RoundLaw := Iff.rfl

section Records
variable {r : Slot} {p : Port}

/-- A record with no round. -/
theorem Slot.roundLaw_of_quiet (hr : r.requesters = PortSet.empty) (hd : r.deadline = none) : r.RoundLaw := by
  rw [Slot.RoundLaw, hr, hd]
  exact ⟨PortSet.has_empty _, by decide⟩

theorem Slot.roundLaw_restarted (r : Slot) : r.restarted.RoundLaw := by
  unfold Slot.restarted
  split <;> exact Slot.roundLaw_of_quiet rfl rfl

/-- A port that is not the owner joins, and the deadline is armed. -/
theorem Slot.RoundLaw.addRequester (h : r.RoundLaw) (ho : r.config.owner ≠ p) {d : Option Time} (hd : d.isSome = true) :
    { r.addRequester p with deadline := d }.RoundLaw := by
  obtain ⟨owner, -⟩ := h
  exact ⟨by simpa [Slot.addRequester, PortSet.has_insert, ho] using owner,
    iff_of_true hd (isEmpty_eq_false_iff.mpr ⟨p, by simp [Slot.addRequester, PortSet.has_insert]⟩)⟩

theorem Slot.RoundLaw.dropRequester (h : r.RoundLaw) (p : Port) : (r.dropRequester p).RoundLaw := by
  unfold Slot.dropRequester
  split
  · next hp =>
    obtain ⟨owner, armed⟩ := h
    refine ⟨by simp [PortSet.has_erase, owner], ?_⟩
    dsimp only
    split
    · next he => simp [he]
    · next he => simp [he, armed, isEmpty_eq_false_iff.mpr ⟨p, hp⟩]
  · exact h

end Records

/-! ### Single updates of the slots -/

section Updates
variable {s t : State}

theorem State.RequesterLaw.of_slots (h : s.RequesterLaw) (e : t.slots = s.slots) : t.RequesterLaw := fun k => by
  rw [State.slot, e]
  exact h k

/-- An operation whose frame names no slot. -/
theorem State.RequesterLaw.of_frame {u : State} (h : s.RequesterLaw) (e : t = u) (hu : u.slots = s.slots) : t.RequesterLaw :=
  h.of_slots (e ▸ hu)

theorem State.RequesterLaw.modSlot (h : s.RequesterLaw) (k : SlotIx) {f : Slot → Slot}
    (hf : (s.slot k).RoundLaw → (f (s.slot k)).RoundLaw) : (s.modSlot k f).RequesterLaw := fun j => by
  rw [State.slot_modSlot]
  split
  · exact hf (h k)
  · exact h j

theorem State.RequesterLaw.mapSlots (h : s.RequesterLaw) {f : Slot → Slot} (hf : ∀ r : Slot, r.RoundLaw → (f r).RoundLaw) :
    (s.mapSlots f).RequesterLaw := fun k => by
  rw [State.slot_mapSlots]
  exact hf _ (h k)

theorem State.RequesterLaw.foldl {α : Type} {f : State → α → State} (h : s.RequesterLaw)
    (hf : ∀ u a, u.RequesterLaw → (f u a).RequesterLaw) (l : List α) : (l.foldl f s).RequesterLaw :=
  foldl_keeps hf l s h

theorem State.RequesterLaw.ite {c : Prop} [Decidable c] (ht : c → s.RequesterLaw) (he : ¬c → t.RequesterLaw) :
    (if c then s else t).RequesterLaw := by
  split
  · next hc => exact ht hc
  · next hc => exact he hc

theorem State.requesterLaw_reset : State.reset.RequesterLaw := State.requesterLaw_iff.mpr fun k => by
  rw [State.reset_slot]
  exact Slot.roundLaw_of_quiet rfl rfl

end Updates

/-! ### The operations of the blocks

The law reads the slot records alone. An operation that moves none has the law of its argument, by definition; one whose frame
names no slot has it by its frame; one that changes other fields of a record has it record by record. What is left are the
operations that change an owner, a requester set or a deadline: the beginning, joining and end of a round, a requester that
drops out, the timers moved by SET_TIME, and a record configured, cleared or restarted. -/

namespace State.RequesterLaw

section Operations
variable {s : State} (h : s.RequesterLaw)
include h

theorem modPort (p : Port) (f : PortUnit → PortUnit) : (s.modPort p f).RequesterLaw := h
theorem modHealth (p : Port) (f : Health → Health) : (s.modHealth p f).RequesterLaw := h
theorem modFlight (f : Landing → Landing) : (s.modFlight f).RequesterLaw := h
theorem setHold (p : Port) (o : Option Hold) : (s.setHold p o).RequesterLaw := h
theorem report (p : Port) (r : ReportKind) : (s.report p r).RequesterLaw := h
theorem post (p : Port) (r : Result) : (s.post p r).RequesterLaw := h
theorem setPhase (p : Port) (ph : Phase) : (s.setPhase p ph).RequesterLaw := h
theorem unripen (k : SlotIx) : (s.unripen k).RequesterLaw := h
theorem withdraw (p : Port) : (s.withdraw p).RequesterLaw := h
theorem freeToken (p : Port) : (s.freeToken p).RequesterLaw := ite (fun _ => h) fun _ => h
theorem pick (n : Nat) : (s.pick n).2.RequesterLaw := h.of_frame (s.pick_frame n) rfl
theorem shuffle {α : Type} (l : List α) : (s.shuffle l).2.RequesterLaw := h.of_frame (s.shuffle_frame l) rfl
theorem completeAll (c : Command) : (s.completeAll c).RequesterLaw := h.of_frame (s.completeAll_frame c) rfl
theorem settle : s.settle.RequesterLaw := h.of_frame s.settle_frame rfl
theorem viewsGone (k : SlotIx) : (s.viewsGone k).RequesterLaw := h.of_frame (s.viewsGone_frame k) rfl
theorem ripen (k : SlotIx) : (s.ripen k).RequesterLaw := h.of_frame (s.ripen_frame k) rfl
theorem markDetaching (p : Port) (c : DetachCause) : (s.markDetaching p c).RequesterLaw :=
  h.of_frame (s.markDetaching_frame p c) rfl
theorem recordLanding (o : Offer) (d : Bool) : (s.recordLanding o d).RequesterLaw :=
  h.of_frame (s.recordLanding_frame o d) rfl
theorem appendNote (p : Port) (n : Note) : (s.appendNote p n).RequesterLaw :=
  h.of_frame (s.appendNote_frame p n) rfl
theorem appendEach (ps : PortSet) (n : Port → Note) : (s.appendEach ps n).RequesterLaw :=
  h.of_frame (s.appendEach_frame ps n) rfl
theorem tell (ps : PortSet) (r : Reason) (k : SlotIx) : (s.tell ps r k).RequesterLaw := h.appendEach ps _
theorem tellDropped (src : Source) (k : SlotIx) : (s.tellDropped src k).RequesterLaw :=
  h.of_frame (s.tellDropped_frame src k) rfl
theorem setParked (k : SlotIx) (o : Option Offer) : (s.setParked k o).RequesterLaw := h.modSlot k id
theorem sealNotes (k : SlotIx) : (s.sealNotes k).RequesterLaw := h
theorem popNote (p : Port) : (s.popNote p).RequesterLaw := by
  unfold State.popNote
  split <;> exact h

/-! Freezing and the watch. -/

theorem dueToRipe : s.dueToRipe.RequesterLaw := by
  have emptied : { s with due := [] }.RequesterLaw := h
  refine emptied.foldl (fun u o hu => ?_) s.due
  exact ripen (s := u.setParked o.slot (some o)) (hu.setParked _ _) _

theorem becomeFrozen : s.becomeFrozen.RequesterLaw := by
  have frozen : { s with exchange := .frozen, freezeMark := false, task := none }.RequesterLaw := h
  exact ((frozen.dueToRipe.completeAll .freeze).completeAll .step).completeAll .resume

theorem callFreeze : s.callFreeze.RequesterLaw := by
  unfold State.callFreeze
  split
  · exact ite (fun _ => h) fun _ => h.becomeFrozen
  · dsimp only
    split
    · exact ite (fun _ => h) fun _ => becomeFrozen (s := { s with freezeMark := true }) h
    all_goals exact h
  all_goals exact h

theorem drainNext : s.drainNext.RequesterLaw := by
  unfold State.drainNext
  refine ite (fun _ => h.becomeFrozen) fun _ => ?_
  split
  · exact h
  · exact completeAll (s := { s with exchange := .running, task := none }) h .resume

theorem landingEnded : s.landingEnded.RequesterLaw := by
  unfold State.landingEnded
  refine ite (fun _ => h) fun _ => ?_
  split
  · exact h.becomeFrozen
  · split
    · exact h.drainNext
    all_goals exact h.becomeFrozen
  all_goals exact h

theorem offerAct (kind : ActKind) (d : Bool) (k : SlotIx) (src : Source) : (s.offerAct kind d k src).RequesterLaw := by
  have recorded : (s.recordMatch kind d k src).RequesterLaw := h
  unfold State.offerAct
  refine ite (fun _ => ?_) fun _ => h
  dsimp only
  split
  · exact recorded
  all_goals exact recorded.callFreeze

/-! Landings: they write the value part of a record and move its pending value. -/

theorem beginLanding (o : Offer) : (s.beginLanding o).RequesterLaw := h.modSlot o.slot id
theorem park (o : Offer) : (s.park o).RequesterLaw := h.modSlot o.slot id

/-- A landing keeps the law where leaving its place and staying there do. -/
theorem tryLanding (o : Offer) (d : Bool) {gone stays : State → State}
    (hg : ∀ t : State, t.RequesterLaw → (gone t).RequesterLaw) (hs : ∀ t : State, t.RequesterLaw → (stays t).RequesterLaw) :
    (s.tryLanding o d gone stays).RequesterLaw := by
  have recorded := h.recordLanding o d
  rcases s.tryLanding_cases o d gone stays with ⟨-, e⟩ | ⟨-, e⟩ | ⟨-, e⟩ <;> rw [e]
  · exact (hg _ recorded).beginLanding o
  · exact ((hg _ recorded).beginLanding o).callFreeze
  · exact (hs _ recorded).becomeFrozen

theorem commitOnEmpty (k : SlotIx) : (s.commitOnEmpty k).RequesterLaw := by
  unfold State.commitOnEmpty
  split
  · exact h
  · next o _ =>
    have due : (s.toDue k o).RequesterLaw := h.setParked k none
    split
    · exact ite (fun _ => due) fun _ =>
        h.tryLanding o true (fun _ ht => ht.setParked k none) fun _ ht => (ht.setParked k _).ripen k
    · exact due
    · exact h.ripen k
    · exact h.ripen k
    · exact h

theorem takeHead (o : Offer) (rest : List Offer) : (s.takeHead o rest).RequesterLaw :=
  ite (fun _ => h.tryLanding o false (fun _ ht => ht) fun _ ht => ht) fun _ => park (s := { s with queue := rest }) h o

theorem takeDue (o : Offer) (rest : List Offer) : (s.takeDue o rest).RequesterLaw :=
  h.tryLanding o true (fun _ ht => ht) fun _ ht => ht

theorem takeRipe (k : SlotIx) : (s.takeRipe k).RequesterLaw := by
  unfold State.takeRipe
  split
  · exact h
  · exact h.tryLanding _ true (fun _ ht => ht.setParked k none) fun _ ht => ht.setParked k _

theorem takeDrain (k : SlotIx) : (s.takeDrain k).RequesterLaw := by
  unfold State.takeDrain
  refine ite (fun _ => h.takeRipe k) fun _ => ?_
  dsimp only
  split
  · exact h.drainNext.takeRipe _
  all_goals exact h.drainNext

theorem takeStep (i : Item) : (s.takeStep i).RequesterLaw := by
  cases i with
  | ripe k => exact ite (fun _ => h.takeRipe k) fun _ => h.becomeFrozen
  | head n =>
    unfold State.takeStep
    dsimp only
    split
    · next o rest _ =>
      have taken := h.takeHead o rest
      exact ite (fun _ => ite (fun _ => taken) fun _ => taken.becomeFrozen) fun _ => h.becomeFrozen
    · exact h.becomeFrozen

theorem takeNext : s.takeNext.RequesterLaw := by
  unfold State.takeNext
  refine ite (fun _ => h) fun _ => ?_
  split
  · split
    · exact h.takeDue _ _
    · split
      · exact h.takeHead _ _
      · exact h
  · split
    · exact h.takeStep _
    · exact h.takeDrain _
    · exact h
  all_goals exact h

/-! Retirement, holds and views. -/

theorem completeRetirement (k : SlotIx) : (s.completeRetirement k).RequesterLaw := by
  have told := (h.tell (s.subscribers k) .retired k).sealNotes k
  exact (told.modSlot k fun _ => Slot.roundLaw_of_quiet rfl rfl).viewsGone k

theorem testRetirement (k : SlotIx) : (s.testRetirement k).RequesterLaw := ite (fun _ => h.completeRetirement k) fun _ => h

theorem endHold (p : Port) : (s.endHold p).RequesterLaw := by
  unfold State.endHold
  split
  · exact h
  · next o _ =>
    have unheld := h.setHold p none
    exact ite (fun _ => (unheld.commitOnEmpty o.slot).testRetirement o.slot) fun _ => unheld

theorem reclaimDue (k : SlotIx) : (s.reclaimDue k).RequesterLaw := by
  unfold State.reclaimDue
  split
  · exact h.setParked k _
  · exact h

theorem capture (p : Port) (k : SlotIx) : (s.capture p k).RequesterLaw := h.modSlot k id

theorem grantView (p : Port) (k : SlotIx) : (s.grantView p k).RequesterLaw :=
  (((((h.endHold p).capture p k).reclaimDue k).unripen k).post p .done).offerAct _ _ _ _

theorem takeView (p : Port) (n : Byte) : (takeView p n s).RequesterLaw := by
  unfold Machine.takeView
  split
  · exact h
  · next k _ =>
    exact ite (fun _ => ((h.capture p k).post p .done).offerAct _ _ _ _) fun _ => ite (fun _ => h) fun _ => h.grantView p k

theorem grantWaiting (p : Port) : (s.grantWaiting p).RequesterLaw := by
  unfold State.grantWaiting
  split
  · exact ite (fun _ => h) fun _ => h.grantView p _
  · exact ite (fun _ => h) fun _ => h
  all_goals exact h

end Operations

end State.RequesterLaw
end Sys2Proof.Machine
end

section
namespace Sys2Proof.Machine
open Sys2Proof Sys2Proof.Publication

/-! ### REQUEST: its checks let no owner into the set (R91, R92) -/

theorem owner_of_checkRequest {s : State} {p : Port} {n : Byte} {k : SlotIx} (h : s.checkRequest p n = .ok k) :
    (s.slot k).config.owner ≠ p := by
  unfold State.checkRequest at h
  split at h
  · cases h
  · split at h
    · cases h
    · dsimp only at h
      split_ifs at h with owner
      cases h
      exact owner

namespace State.RequesterLaw

section Blocks
variable {s : State} (h : s.RequesterLaw)
include h

theorem takeNote (p : Port) : (takeNote p s).RequesterLaw := by
  have picked := h.pick 2
  exact ite (fun _ => ite (fun _ => (picked.popNote p).endHold p) fun _ => (picked.endHold p).popNote p)
    fun _ => (h.popNote p).endHold p

theorem expireHold (p : Port) : (expireHold p s).RequesterLaw := by
  unfold Machine.expireHold
  split
  · exact h
  · exact ite (fun _ => (h.endHold p).appendNote p _) fun _ => h

theorem takeRelease (p : Port) : (takeRelease p s).RequesterLaw := by
  unfold Machine.takeRelease
  split
  · exact h
  · exact h.endHold p

theorem takePublish (p : Port) (n : Byte) : (takePublish p n s).RequesterLaw := by
  unfold Machine.takePublish
  split <;> exact h

/-- The first requester arms the deadline. -/
theorem beginRound {p : Port} {k : SlotIx} (ho : (s.slot k).config.owner ≠ p) : (s.beginRound p k).RequesterLaw := by
  have begun (d : Time) : (s.modSlot k fun r => { r.addRequester p with deadline := some d }).RequesterLaw :=
    h.modSlot k fun hr => hr.addRequester ho rfl
  unfold State.beginRound
  dsimp only
  split
  · exact (begun _).appendNote _ _
  · exact begun _

/-- A later requester finds the deadline armed. -/
theorem joinRound {p : Port} {k : SlotIx} (ho : (s.slot k).config.owner ≠ p) (hr : (s.slot k).requesters.isEmpty = false) :
    (s.modSlot k (Slot.addRequester p)).RequesterLaw := by
  refine h.modSlot k fun law => ?_
  have ⟨_, armed⟩ := law
  exact law.addRequester ho (armed.mpr hr)

theorem takeRequest (p : Port) (n : Byte) : (takeRequest p n s).RequesterLaw := by
  unfold Machine.takeRequest
  split
  · exact h
  · next k e =>
    have owner := owner_of_checkRequest e
    refine ite (fun _ => ?_) fun hr => ?_
    · exact ((h.beginRound owner).post p .done).offerAct _ _ _ _
    · exact ((h.joinRound owner (by simpa using hr)).post p .done).offerAct _ _ _ _

/-! The end of a round, and the parts of a landing. -/

theorem endRound (k : SlotIx) : (s.modSlot k Slot.endRound).RequesterLaw := h.modSlot k fun _ => Slot.roundLaw_of_quiet rfl rfl

theorem timeOutRequesters (k : SlotIx) : (s.timeOutRequesters k).RequesterLaw := (h.tell _ _ k).endRound k

theorem expireDeadline (k : SlotIx) : (expireDeadline k s).RequesterLaw := by
  unfold Machine.expireDeadline
  split
  · exact h
  · exact ite (fun _ => ite (fun _ => h.timeOutRequesters k) fun _ => h.timeOutRequesters k) fun _ => h

theorem serveLanding : (serveLanding s).RequesterLaw := by
  unfold Machine.serveLanding
  split
  · exact h
  · split
    · exact h
    · exact h.endRound _

theorem notifyLanding : (notifyLanding s).RequesterLaw := by
  unfold Machine.notifyLanding
  split
  · exact h
  · next l _ =>
    split
    · exact h
    · exact ite (fun _ => h) fun _ => modFlight (appendEach (h.modSlot _ id) _ _) _

theorem timeLanding : (timeLanding s).RequesterLaw := by
  unfold Machine.timeLanding
  split
  · exact h
  · next l _ => exact ite (fun _ => h) fun _ => modFlight (h.modSlot _ id) _

theorem landingOver (k : SlotIx) : (s.landingOver k).RequesterLaw := by
  have counted (n : Nat) : { s with freeCount := n }.RequesterLaw := h
  rcases s.landingOver_cases k with e | ⟨n, e | ⟨p, e | e⟩⟩ <;> rw [e]
  · exact h.landingEnded
  · exact (counted n).landingEnded.completeRetirement k
  · exact (counted n).landingEnded.grantWaiting p
  · exact ((counted n).grantWaiting p).landingEnded

theorem endLanding : (endLanding s).RequesterLaw := by
  unfold Machine.endLanding
  split
  · exact h
  · exact ite (fun _ => landingOver (s := { s with flight := none }) h _) fun _ => h

/-! The time base: a timer is moved or disarmed, and no deadline is armed. -/

theorem tick : (tick s).RequesterLaw := ite (fun _ => ite (fun _ => ite (fun _ => h) fun _ => h) fun _ => h) fun _ => h

theorem moveTimers (d : Time) : (s.moveTimers d).RequesterLaw := by
  have moved : (s.mapSlots fun r =>
      { r with deadline := r.deadline.map (· + d), freshness := r.freshness.map (· + d) }).RequesterLaw :=
    h.mapSlots fun r hr => by simpa [Slot.RoundLaw] using hr
  exact moved.of_slots rfl

theorem takeSetTime (p : Port) : (takeSetTime p s).RequesterLaw :=
  (h.moveTimers ((s.port p).arg1 ++ (s.port p).arg0 - s.time)).of_slots rfl

theorem expireFreshness (k : SlotIx) : (expireFreshness k s).RequesterLaw := by
  unfold Machine.expireFreshness
  split
  · exact h
  · exact ite (fun _ => tell (h.modSlot k id) _ _ k) fun _ => h

/-! The Slot Table's commands. -/

theorem ifToken (p : Port) {f : State → State} (hf : (f s).RequesterLaw) : (s.ifToken p f).RequesterLaw :=
  ite (fun _ => hf) fun _ => h

theorem takeConfigure (p : Port) (n : Byte) : (takeConfigure p n s).RequesterLaw := by
  unfold Machine.takeConfigure
  split
  · exact h
  · next k _ =>
    have configured (c : SlotConfig) (b : Bool) : (s.modSlot k fun _ => Slot.configured c b).RequesterLaw :=
      h.modSlot k fun _ => Slot.roundLaw_of_quiet rfl rfl
    exact ((configured _ _).post p .done).offerAct _ _ _ _

theorem dropParked (k : SlotIx) : (s.dropParked k).RequesterLaw := by
  have reclaimed := h.reclaimDue k
  unfold State.dropParked
  dsimp only
  split
  · exact reclaimed
  · exact ((reclaimed.setParked k none).unripen k).tellDropped _ k

theorem dropEntries (k : SlotIx) : (s.dropEntries k).RequesterLaw := by
  have others : { s with queue := s.queue.filter fun o => o.slot != k }.RequesterLaw := h
  exact others.foldl (fun _ o hu => hu.tellDropped o.source k) _

theorem disarmFreshness (k : SlotIx) : (s.modSlot k fun r => { r with freshness := none }).RequesterLaw := h.modSlot k id

theorem retireSteps (k : SlotIx) : (s.retireSteps k).RequesterLaw := by
  have retiring : (s.modSlot k fun r => { r with state := .retiring }).RequesterLaw := h.modSlot k id
  exact (((retiring.dropEntries k).dropParked k).timeOutRequesters k).disarmFreshness k

theorem takeRetire (p : Port) (n : Byte) : (takeRetire p n s).RequesterLaw := by
  unfold Machine.takeRetire
  split
  · exact h
  · next k _ =>
    exact (((h.retireSteps k).testRetirement k).post p .done).offerAct _ _ _ _

/-! Detachment. -/

theorem dropRequester (p : Port) : (s.mapSlots (Slot.dropRequester p)).RequesterLaw := h.mapSlots fun _ hr => hr.dropRequester p

theorem detachRequests (p : Port) : (s.detachRequests p).RequesterLaw := by
  have left : { s.mapSlots (Slot.dropRequester p) with lostOwners := s.lostOwners.insert p }.RequesterLaw := h.dropRequester p
  exact (left.shuffle _).foldl (fun _ k hu => hu.timeOutRequesters k) _

theorem flushNotes (p : Port) : (s.flushNotes p).RequesterLaw :=
  mapSlots (s := s.modNotes p fun m => { m with queue := [] }) h fun _ hr => hr

theorem finishExpels (p : Port) : (s.finishExpels p).RequesterLaw := by
  refine foldl h (fun t q ht => ?_) _
  split
  · exact ite (fun _ => ite (fun _ => ht) fun _ => ite (fun _ => ht) fun _ => ht) fun _ => ht
  all_goals exact ht

theorem orphan (k : SlotIx) : (s.orphan k).RequesterLaw := tell (h.modSlot k id) _ _ _

theorem detachOrphan (p : Port) : (s.detachOrphan p).RequesterLaw :=
  (((h.shuffle _).foldl (fun _ k hu => hu.orphan k) _).modHealth p _).finishExpels p

theorem detachStep (p : Port) (st : DetachStep) : (s.detachStep p st).RequesterLaw := by
  cases st with
  | token => exact ite (fun _ => h) fun _ => h
  | hold => exact h.endHold p
  | publications =>
    exact h.mapSlots fun r hr => by split <;> exact hr
  | requests => exact h.detachRequests p
  | notes => exact h.flushNotes p
  | orphan => exact h.detachOrphan p

omit h in
theorem runDetach (p : Port) (upTo : DetachStep) (fuel : Nat) (st : DetachStep) (s : State) (h : s.RequesterLaw) :
    (s.runDetach p upTo fuel st).RequesterLaw := by
  induction fuel generalizing s st with
  | zero => exact h
  | succ fuel ih =>
    have stepped := (h.detachStep p st).settle
    unfold State.runDetach
    refine ite (fun _ => h) fun _ => ?_
    split
    · exact stepped
    · exact ih _ _ stepped

theorem runDetachment (p : Port) (upTo : DetachStep) : (runDetachment p upTo s).RequesterLaw := by
  unfold Machine.runDetachment
  split
  · exact ite (fun _ => runDetach p upTo 6 _ s h) fun _ => h
  · split
    · exact ite (fun _ => runDetach p upTo 6 .token { s with detachQueue := dropWaiting p s.detachQueue } h) fun _ => h
    · exact h

theorem takeExpel (p : Port) : (takeExpel p s).RequesterLaw := by
  unfold Machine.takeExpel
  split
  · exact h
  · next q _ =>
    have begins : ((s.setPhase p (.expelling q true)).markDetaching q .expelled).RequesterLaw :=
      (h.setPhase p _).markDetaching q _
    have ends : (s.expelOutside q).RequesterLaw := ite (fun _ => h) fun _ => h
    refine ite (fun _ => h) fun _ => ite (fun _ => h) fun _ => ?_
    split
    · exact begins
    · exact begins
    · exact ends
    · exact ends

theorem reportActive (p : Port) : (s.reportActive p).RequesterLaw := by
  have cleared : (s.mapSlots fun r => if r.config.owner = p then { r with orphaned := false } else r).RequesterLaw :=
    h.mapSlots fun _ hr => by split <;> exact hr
  exact cleared.of_slots rfl

theorem endQuiet (p : Port) : (endQuiet p s).RequesterLaw := by
  unfold Machine.endQuiet
  dsimp only
  split
  · exact h
  · exact ite (fun _ => ite (fun _ => (h.modHealth p _).reportActive p) fun _ => h.modHealth p _) fun _ => h

/-! The commands that reach no slot. -/

theorem takeRejoinPolicy (p : Port) : (takeRejoinPolicy p s).RequesterLaw := by
  unfold Machine.takeRejoinPolicy
  dsimp only
  split
  · exact h
  · exact ite (fun _ => h) fun _ => h

theorem takeRejoin (p : Port) : (takeRejoin p s).RequesterLaw := by
  unfold Machine.takeRejoin
  split <;> exact h

theorem takeClaim (p : Port) : (takeClaim p s).RequesterLaw := by
  unfold Machine.takeClaim
  refine ite (fun _ => h) fun _ => ?_
  split
  · exact ite (fun _ => h) fun _ => h
  · exact h

theorem takeFreeze (p : Port) : (takeFreeze p s).RequesterLaw := by
  unfold Machine.takeFreeze
  split
  · exact h.callFreeze
  · exact h.callFreeze
  all_goals exact h

theorem takeStepCommand (p : Port) : (takeStepCommand p s).RequesterLaw := by
  unfold Machine.takeStepCommand
  split
  · split
    · exact h
    · split <;> exact h
  all_goals exact h

theorem takeResume (p : Port) : (takeResume p s).RequesterLaw := by
  unfold Machine.takeResume
  split
  · split <;> exact h
  all_goals exact h

theorem takeInspect (p : Port) : (takeInspect p s).RequesterLaw := by
  unfold Machine.takeInspect
  refine ite (fun _ => h) fun _ => ?_
  split
  · exact h
  · split <;> exact h

theorem takeCancelHead (p : Port) : (takeCancelHead p s).RequesterLaw := by
  unfold Machine.takeCancelHead
  refine ite (fun _ => h) fun _ => ?_
  split
  · exact h
  · next o rest _ =>
    have taken : { s with queue := rest }.RequesterLaw := h
    exact ite (fun _ => taken.timeOutRequesters o.slot) fun _ => taken.tellDropped o.source o.slot

theorem takeArm (p : Port) : (takeArm p s).RequesterLaw := by
  unfold Machine.takeArm
  dsimp only
  split <;> exact h

theorem takeReadCapture (p : Port) : (takeReadCapture p s).RequesterLaw := by
  unfold Machine.takeReadCapture
  split <;> exact h

theorem takeCommand (c : Command) (p : Port) (n : Byte) : (takeCommand c p n s).RequesterLaw := by
  cases c with
  | publish => exact h.takePublish p n
  | view => exact h.takeView p n
  | release => exact h.takeRelease p
  | request => exact h.takeRequest p n
  | claimToken => exact h.takeClaim p
  | yieldToken => exact ite (fun _ => h) fun _ => h
  | configureSlot => exact h.ifToken p (h.takeConfigure p n)
  | retireSlot => exact h.ifToken p (h.takeRetire p n)
  | setHoldTimeout => exact h.ifToken p (ite (fun _ => h) fun _ => h)
  | setTime => exact h.ifToken p (h.takeSetTime p)
  | setRejoinPolicy => exact h.ifToken p (h.takeRejoinPolicy p)
  | expel => exact h.ifToken p (h.takeExpel p)
  | restart => exact h.ifToken p h
  | freeze => exact h.ifToken p (h.takeFreeze p)
  | resume => exact h.ifToken p (h.takeResume p)
  | step => exact h.ifToken p (h.takeStepCommand p)
  | inspect => exact h.ifToken p (h.takeInspect p)
  | cancelHead => exact h.ifToken p (h.takeCancelHead p)
  | armWatch => exact h.ifToken p (h.takeArm p)
  | disarmWatch => exact h.ifToken p h
  | readCapture => exact h.ifToken p (h.takeReadCapture p)
  | rejoin => exact h.takeRejoin p
  | resetPort => exact h

/-! The command unit and the resets. -/

theorem resetNotes (p : Port) : (s.resetNotes p).RequesterLaw := h.flushNotes p

theorem resetViewAndNotes (p : Port) : (s.resetViewAndNotes p).RequesterLaw := by
  have picked := h.pick 2
  exact ite (fun _ => ite (fun _ => (picked.endHold p).resetNotes p) fun _ => (picked.resetNotes p).endHold p)
    fun _ => (h.endHold p).resetNotes p

theorem resetPort (p : Port) (busy : Option Busy) : (s.resetPort p busy).RequesterLaw :=
  (((((h.modPort p _).resetViewAndNotes p).withdraw p).dropRequester p).freeToken p).report p _

theorem writeCommand (p : Port) (c : Command) (n : Byte) : (s.writeCommand p c n).RequesterLaw := by
  have accepted : (s.acceptWrite p c n).RequesterLaw := h
  exact ite (fun _ => ite (fun _ => h) fun _ => h.resetPort p _) fun _ => ite (fun _ => h) fun _ =>
    ite (fun _ => accepted) fun _ => ite (fun _ => accepted) fun _ => accepted.takeCommand c p n

theorem writeCommandWord (p : Port) (w : Word) : (s.writeCommandWord p w).RequesterLaw := by
  unfold State.writeCommandWord
  split
  · exact h.writeCommand p _ _
  · exact ite (fun _ => h) fun _ => h

theorem writeStored (p : Port) (off : BitVec 6) (w : Word) : (s.writeStored p off w).RequesterLaw := by
  unfold State.writeStored
  exact ite (fun _ => h) fun _ => ite (fun _ => h) fun _ => ite (fun _ => h) fun _ => ite (fun _ => h) fun _ =>
    ite (fun _ => h) fun _ => ite (fun _ => h) fun _ => ite (fun _ => h) fun _ => h

theorem finishResetPort (p : Port) : (finishResetPort p s).RequesterLaw := ite (fun _ => h.post p _) fun _ => h

theorem completeExpels : s.completeExpels.RequesterLaw := by
  refine foldl h (fun t q ht => ?_) _
  split <;> exact ht

theorem beginRestart : (beginRestart s).RequesterLaw := by
  have gone : (s.retiringSlots.foldl State.viewsGone s).RequesterLaw := h.foldl (fun _ k hu => hu.viewsGone k) _
  have restarted := gone.mapSlots fun r _ => r.roundLaw_restarted
  unfold Machine.beginRestart
  refine ite (fun _ => ?_) fun _ => h
  refine completeExpels (completeAll (completeAll (completeAll ?_ _) _) _)
  exact restarted.of_slots rfl

theorem release (p : Port) : (s.release p).RequesterLaw := by
  unfold State.release
  split
  · exact (h.setPhase p .taken).takeCommand _ p _
  · exact h

theorem endRestart : (endRestart s).RequesterLaw := by
  have running := completeAll (s := { s with restartMark := false, exchange := .running }) h .restart
  exact ite (fun _ => (running.shuffle _).foldl (fun _ p hu => (hu.release p).settle) _) fun _ => h

/-! A step. -/

theorem event {f : State → State} {t : State} (hf : ∀ u : State, u.RequesterLaw → (f u).RequesterLaw)
    (e : event f s = .next t) : t.RequesterLaw := by
  cases e
  exact ite (fun _ => h) fun _ => (hf s h).settle

theorem cycle {p : Port} {f : State → State} {t : State} (hf : ∀ u : State, u.RequesterLaw → (f u).RequesterLaw)
    (e : cycle p f s = .next t) : t.RequesterLaw :=
  h.event (fun u hu => ite (fun _ => hu) fun _ => hf u hu) e

theorem execPortReset {p : Port} {t : State} (e : execPortReset p s = .next t) : t.RequesterLaw := by
  unfold Machine.execPortReset at e
  split at e
  · cases e
    exact h
  · exact event (s := { s with lineLow := s.lineLow.insert p }) h (fun _ hu => hu.resetPort p none) e

theorem exec {i : Instr} {t : State} (e : exec i s = .next t) : t.RequesterLaw := by
  cases i with
  | undefinedCommand p code n => exact h.cycle (fun _ hu => hu.writeCommandWord p _) e
  | registerWrite p off w =>
    exact h.cycle (fun _ hu => ite (fun _ => hu.writeCommandWord p w) fun _ => hu.writeStored p off w) e
  | attentionEnableWrite p w => exact h.cycle (fun _ hu => hu.modPort p _) e
  | resultRead p => exact h.cycle (fun _ hu => hu.modPort p _) e
  | timeLowRead p => exact h.cycle (fun _ hu => hu.modPort p _) e
  | noteTake p => exact h.cycle (fun _ hu => hu.takeNote p) e
  | deviceReset => cases e; exact State.requesterLaw_reset.of_slots rfl
  | deviceResetRelease => cases e; exact h
  | portReset p => exact h.execPortReset e
  | resetPortDone p => exact h.event (fun _ hu => hu.finishResetPort p) e
  | takeNextValue => exact h.event (fun _ hu => hu.takeNext) e
  | landingService => exact h.event (fun _ hu => hu.serveLanding) e
  | landingNotification => exact h.event (fun _ hu => hu.notifyLanding) e
  | landingTimePart => exact h.event (fun _ hu => hu.timeLanding) e
  | landingEnd => exact h.event (fun _ hu => hu.endLanding) e
  | viewGrant p => exact h.event (fun _ hu => hu.grantWaiting p) e
  | holdExpiry p => exact h.event (fun _ hu => hu.expireHold p) e
  | deadlineExpiry k => exact h.event (fun _ hu => hu.expireDeadline k) e
  | freshnessExpiry k => exact h.event (fun _ hu => hu.expireFreshness k) e
  | quietIntervalEnd p => exact h.event (fun _ hu => hu.endQuiet p) e
  | detachment p upTo => exact h.event (fun _ hu => hu.runDetachment p upTo) e
  | restartBegin => exact h.event (fun _ hu => hu.beginRestart) e
  | restartEnd => exact h.event (fun _ hu => hu.endRestart) e
  | timeBaseAdvance => exact h.event (fun _ hu => hu.tick) e
  | _ p n => exact h.cycle (fun _ hu => hu.writeCommand p _ n) e

theorem step {t : State} (e : step s = .next t) : t.RequesterLaw := by
  unfold Machine.step at e
  split at e
  · cases e
    exact h
  · next rest _ => exact exec (s := { s with pending := rest }) h e

end Blocks

end State.RequesterLaw
end Sys2Proof.Machine
end

section
namespace Sys2Proof.Requests
open Sys2Proof Sys2Proof.Machine

/-- Settles O8: every operation of the part keeps the law of requesters, and so does each row of the opcode table. -/
theorem stepKeepsRequesterLaw : Obligations.StepKeepsRequesterLaw := fun _ _ h e => h.step e

end Sys2Proof.Requests
end

section
namespace Sys2Proof.Requests
open Sys2Proof Sys2Proof.Machine Sys2Proof.Publication Sys2Proof.Notes

/-! ### The parts of a landing at the Request Unit and the Time Unit (R97, R112) -/

section Landing
variable {s t : State} {l : Landing}

/-- An event of the part's own blocks that makes no report. -/
theorem event_unreported {f : State → State} (hs : s.settled) (e : f s = t) (hr : t.reports = s.reports) :
    event f s = .next t :=
  (event_next hs.1).trans (congrArg _ (by rw [e, State.settle_nil t (hr.trans hs.2)]))

theorem milliseconds_eq {n : Nat} (x : BitVec n) : milliseconds x = BitVec.ofNat 32 (x.toNat * 1000) := by
  apply BitVec.eq_of_toNat_eq
  simp [milliseconds, Config.millisecond]

theorem serveLanding_of_unserved (hf : s.flight = some l) (h : l.served = none) :
    serveLanding s =
      { s with slots := s.slots.set l.offer.slot (s.slot l.offer.slot).endRound
               flight := some { l with served := some (s.slot l.offer.slot).requesters } } := by
  rw [serveLanding, hf]
  dsimp only
  rw [h]
  exact modFlight_of_some (l := l) (by exact hf) _

theorem serveLanding_of_served (hf : s.flight = some l) (h : l.served.isSome = true) : serveLanding s = s := by
  obtain ⟨served, hs⟩ := Option.isSome_iff_exists.mp h
  simp [serveLanding, hf, hs]

theorem timeLanding_of_untimed (hf : s.flight = some l) (h : l.timed = false) :
    timeLanding s =
      (s.modSlot l.offer.slot fun r =>
        { r with
          stale := false
          freshness :=
            if r.state ≠ .retiring ∧ r.config.freshnessLimit ≠ 0#12 then
              some (s.time + BitVec.ofNat 32 (r.config.freshnessLimit.toNat * 1000))
            else r.freshness }).modFlight fun x => { x with timed := true } := by
  simp [timeLanding, hf, h, milliseconds_eq]

theorem timeLanding_of_timed (hf : s.flight = some l) (h : l.timed = true) : timeLanding s = s := by
  simp [timeLanding, hf, h]

end Landing

/-- Settles O18: each part by whether the landing's mark for it is set. -/
theorem landingServiceAndTimePart : Obligations.LandingServiceAndTimePart := by
  intro s l hs hf k r
  refine ⟨fun h => ?_, fun h => ?_, fun h => ?_, fun h => ?_⟩
  · exact event_unreported hs (serveLanding_of_unserved hf h) rfl
  · exact event_unreported hs ((timeLanding_of_untimed hf h).trans (modFlight_of_some (l := l) (by exact hf) _)) rfl
  · exact event_unreported hs (serveLanding_of_served hf h) rfl
  · exact event_unreported hs (timeLanding_of_timed hf h) rfl

end Sys2Proof.Requests
end

section
namespace Sys2Proof.Requests
open Sys2Proof Sys2Proof.Machine Sys2Proof.Publication

/-! ### REQUEST (R91 to R94) -/

section Request
variable {s X : State} {p : Port} {n : Byte} {k : SlotIx}

theorem isEmpty_iff_eq_empty {x : PortSet} : x.isEmpty = true ↔ x = PortSet.empty := by
  refine ⟨fun h => PerPort.ext_get fun q => ?_, fun h => h ▸ by decide⟩
  exact (PortSet.isEmpty_iff x |>.mp h q).trans (PortSet.has_empty q).symm

/-- What a command comes to that its owning block carries out without a report, changing `s` to `X`. -/
theorem cycle_done {c : Command} (h : s.ready p) (hc : c ≠ .resetPort)
    (e : takeCommand c p n (s.busyWith p c n .taken) = (X.busyWith p c n .taken).post p .done) (hr : X.reports = s.reports) :
    cycle p (fun t => t.writeCommand p c n) s = .next (X.answered p .done) := by
  have ⟨⟨_, hrep⟩, _⟩ := h
  rw [cycle_command h hc, e, post_busyWith]
  exact congrArg _ (State.settle_nil _ (hr.trans hrep))

/-- The checks of REQUEST that are left for a port that is not DEGRADED, on an OPEN or LIVE slot of another port that takes
requests. -/
theorem checkRequest_of_requestable (ha : (s.healthOf p).state ≠ .degraded) (hk : k.val = n.toNat)
    (hs : (s.slot k).state = .opened ∨ (s.slot k).state = .live) (ho : (s.slot k).config.owner ≠ p)
    (hd : (s.slot k).config.requestDeadline ≠ 0#8) :
    s.checkRequest p n =
      if (s.slot k).config.answer = .ownerAnswers ∧ ((s.slot k).orphaned ∨ s.lostOwners.has (s.slot k).config.owner) then
        .error .orphaned
      else if (s.slot k).config.answer = .autoAnswer ∧ (s.slot k).state = .opened then .error .noValue
      else if (s.slot k).config.answer = .autoAnswer ∧ (s.slot k).requesters.isEmpty ∧ Config.queueLimit ≤ s.queue.length then
        .error .queueFull
      else .ok k := by
  simp [State.checkRequest, ha, checkSlot_of_taking hk hs, ho, hd]

theorem checkRequest_ok (ha : (s.healthOf p).state ≠ .degraded) (hk : k.val = n.toNat)
    (hs : (s.slot k).state = .opened ∨ (s.slot k).state = .live) (ho : (s.slot k).config.owner ≠ p)
    (hd : (s.slot k).config.requestDeadline ≠ 0#8)
    (howner : (s.slot k).config.answer = .ownerAnswers →
      (s.slot k).orphaned = false ∧ s.lostOwners.has (s.slot k).config.owner = false)
    (hauto : (s.slot k).config.answer = .autoAnswer →
      (s.slot k).state = .live ∧ ((s.slot k).requesters = PortSet.empty → s.queue.length < 8)) :
    s.checkRequest p n = .ok k := by
  rw [checkRequest_of_requestable ha hk hs ho hd]
  cases mode : (s.slot k).config.answer with
  | ownerAnswers =>
    obtain ⟨horphaned, hlost⟩ := howner mode
    simp [horphaned, hlost]
  | autoAnswer =>
    obtain ⟨hlive, hq⟩ := hauto mode
    simpa [hlive, isEmpty_iff_eq_empty, Config.queueLimit] using hq

theorem beginRound_watch : (s.beginRound p k).watch = s.watch := by
  unfold State.beginRound
  dsimp only
  split
  · rw [State.appendNote_frame]
    rfl
  · rfl

/-- The first requester's round on a slot that its owner answers, whose queue has room (R93). -/
theorem beginRound_of_ownerAnswers (ha : (s.slot k).config.answer = .ownerAnswers)
    (hroom : s.roomFor (s.slot k).config.owner = true) :
    s.beginRound p k =
      { s.noted (fun q => q == (s.slot k).config.owner) (fun _ => s.noteOf .request k) with
        slots := s.slots.set k
          { (s.slot k).addRequester p with
            deadline := some (s.time + BitVec.ofNat 32 ((s.slot k).config.requestDeadline.toNat * 1000)) } } := by
  rw [State.beginRound, ← milliseconds_eq]
  dsimp only
  rw [ha]
  dsimp only
  rw [appendNote_of_room (fun _ => rfl) (by exact hroom), modNotes_append_eq_noted]
  rfl

/-- The first requester's round on a slot that the exchange answers (R94). -/
theorem beginRound_of_autoAnswer (ha : (s.slot k).config.answer = .autoAnswer) :
    s.beginRound p k =
      { s with
        slots := s.slots.set k
          { (s.slot k).addRequester p with
            deadline := some (s.time + BitVec.ofNat 32 ((s.slot k).config.requestDeadline.toNat * 1000)) }
        queue := s.queue ++ [s.newEcho k]
        nextOrder := s.nextOrder + 1 } := by
  rw [State.beginRound, ← milliseconds_eq]
  dsimp only
  rw [ha]
  rfl

theorem takeRequest_of_first (e : s.checkRequest p n = .ok k) (hr : (s.slot k).requesters = PortSet.empty)
    (hw : s.watch.hits .request k (.port p) = false) : takeRequest p n s = (s.beginRound p k).post p .done := by
  rw [takeRequest, e]
  dsimp only
  rw [if_pos (isEmpty_iff_eq_empty.mpr hr), State.offerAct_unwatched (by rwa [State.post_watch, beginRound_watch])]

theorem takeRequest_of_later (e : s.checkRequest p n = .ok k) (hr : (s.slot k).requesters ≠ PortSet.empty)
    (hw : s.watch.hits .request k (.port p) = false) :
    takeRequest p n s = (s.modSlot k (Slot.addRequester p)).post p .done := by
  rw [takeRequest, e]
  dsimp only
  rw [if_neg (isEmpty_iff_eq_empty.not.mpr hr), State.offerAct_unwatched (by exact hw)]

/-- A REQUEST that begins a round (R92). -/
theorem exec_request_first (h : s.ready p) (e : s.checkRequest p n = .ok k) (hr : (s.slot k).requesters = PortSet.empty)
    (hw : s.watch.hits .request k (.port p) = false)
    (hX : (s.busyWith p .request n .taken).beginRound p k = X.busyWith p .request n .taken) (hrep : X.reports = s.reports) :
    exec (.request p n) s = .next (X.answered p .done) := by
  refine cycle_done h (by decide) ?_ hrep
  exact (takeRequest_of_first (s := s.busyWith p .request n .taken) e hr hw).trans (by rw [hX])

/-- A REQUEST that finds a round joins it (R92). -/
theorem exec_request_later (h : s.ready p) (e : s.checkRequest p n = .ok k) (hr : (s.slot k).requesters ≠ PortSet.empty)
    (hw : s.watch.hits .request k (.port p) = false) :
    exec (.request p n) s =
      .next ({ s with slots := s.slots.set k ((s.slot k).addRequester p) }.answered p .done) :=
  cycle_done h (by decide) (takeRequest_of_later (s := s.busyWith p .request n .taken) e hr hw) rfl

end Request

/-- Settles O31: by the slot's answer mode, and by whether the REQUEST finds the requester set empty. -/
theorem requestBeginsOrJoinsARound : Obligations.RequestBeginsOrJoinsARound := by
  intro s p n k hready hactive hk r hs ho hd hw joined begun echo
  have passes := checkRequest_ok (by simp [hactive]) hk hs ho hd
  refine ⟨fun ha horphaned hlost => ?_, fun ha hlive => ⟨fun hr hq => ?_, fun hr => ?_⟩⟩
  · have ok := passes (fun _ => ⟨horphaned, hlost⟩) fun h => absurd (ha.symm.trans h) (by decide)
    refine ⟨fun hr hroom => ?_, fun hr => exec_request_later hready ok hr hw⟩
    exact exec_request_first hready ok hr hw (beginRound_of_ownerAnswers (by exact ha) (by exact hroom)) rfl
  · have ok := passes (fun h => absurd (ha.symm.trans h) (by decide)) fun _ => ⟨hlive, fun _ => hq⟩
    exact exec_request_first hready ok hr hw (beginRound_of_autoAnswer (by exact ha)) rfl
  · have ok := passes (fun h => absurd (ha.symm.trans h) (by decide)) fun _ => ⟨hlive, fun h => absurd h hr⟩
    exact exec_request_later hready ok hr hw

end Sys2Proof.Requests
end

section
namespace Sys2Proof.TimeBase
open Sys2Proof Sys2Proof.Machine Sys2Proof.Publication Sys2Proof.Notes Sys2Proof.Requests

/-! ### The stopped time base (R107) -/

theorem timeRuns_of_stopped {s : State} (hx : s.exchange = .frozen ∨ s.exchange = .stepping ∨ s.exchange = .restarting) :
    s.timeRuns = false := by
  rw [← Bool.not_eq_true, timeRuns_iff]
  rcases hx with hx | hx | hx <;> simp [hx]

/-! ### The freshness timer (R113) -/

section Freshness
variable {s : State} {k : SlotIx} {d : Time}

theorem expireFreshness_of_waiting (h : ∀ d, (s.slot k).freshness = some d → (s.timeRuns && s.reached d) = false) :
    expireFreshness k s = s := by
  unfold expireFreshness
  split
  · rfl
  · next d hd => simp [h d hd]

theorem expireFreshness_of_due (hd : (s.slot k).freshness = some d) (hx : s.exchange = .running ∨ s.exchange = .freezing)
    (ht : s.time = d) :
    expireFreshness k s =
      (s.modSlot k fun r => { r with freshness := none, stale := true }).tell (s.subscribers k) .stale k := by
  subst ht
  simp [expireFreshness, hd, timeRuns_iff.mpr hx, reached_self]

/-- A note about slot `k` is placed in the queue of each port of the set, with room there and no note of its reason about `k`. -/
theorem tell_of_fresh {ps : PortSet} {r : Reason}
    (h : ∀ q, ps.has q = true → s.roomFor q = true ∧ ∀ m ∈ (s.noteUnit q).queue, m.reason = r → m.slot ≠ k) :
    s.tell ps r k = s.noted (fun q => ps.has q) fun _ => s.noteOf r k :=
  appendEach_of_fresh fun q hq => (h q hq).imp_right fun other m hm => Bool.eq_false_iff.mpr fun same =>
    have ⟨reason, slot, _⟩ := sameMatter_iff.mp same
    other m hm reason slot

theorem modSlot_tell_stale_of_fresh
    (h : ∀ q, s.subscribes k q = true →
      s.roomFor q = true ∧ ∀ m ∈ (s.noteUnit q).queue, m.reason = .stale → m.slot ≠ k) :
    (s.modSlot k fun r => { r with freshness := none, stale := true }).tell (s.subscribers k) .stale k =
      { s.noted (s.subscribes k) (fun _ => s.noteOf .stale k) with
        slots := s.slots.set k { s.slot k with freshness := none, stale := true } } := by
  have members : (fun q => (s.subscribers k).has q) = s.subscribes k := funext fun q => State.subscribers_has s k q
  have told := tell_of_fresh (s := s.modSlot k fun r => { r with freshness := none, stale := true }) (k := k) fun q hq =>
    h q (by rwa [State.subscribers_has] at hq)
  rw [members, State.noteOf, State.slot_modSlot_self] at told
  exact told

end Freshness

/-- Settles O34: the expiry that is due tells the subscribers, and one that is not leaves the state. -/
theorem freshnessExpires : Obligations.FreshnessExpires := by
  intro s k d hs hd
  have waits (h : (s.timeRuns && s.reached d) = false) : exec (.freshnessExpiry k) s = .next s :=
    event_unreported hs (expireFreshness_of_waiting fun d' hd' => by cases hd.symm.trans hd'; exact h) rfl
  refine ⟨fun hx ht hroom => ?_, fun hx => waits ?_, fun e h0 he hde => waits ?_⟩
  · exact event_unreported hs ((expireFreshness_of_due hd hx ht).trans (modSlot_tell_stale_of_fresh hroom)) rfl
  · rw [timeRuns_of_stopped hx, Bool.false_and]
  · rw [hde, reached_of_ahead h0 he, Bool.and_false]

end Sys2Proof.TimeBase
end

section
namespace Sys2Proof.Machine
open Sys2Proof

/-! ### Timers that the time base has not passed (R108) -/

/-- R108 for one slot record, the time base at `now`. -/
def Slot.OnTime (now : Time) (r : Slot) : Prop := ∀ d, r.deadline = some d ∨ r.freshness = some d → (d - now).msb = false

/-- R108 for one health record. -/
def Health.OnTime (now : Time) (g : Health) : Prop := ∀ e, g.state = .rejoining → g.quiet = some e → (e - now).msb = false

/-- R108 for what a port holds. -/
def HoldOnTime (now : Time) (o : Option Hold) : Prop := ∀ g, o = some g → (g.expiry - now).msb = false

theorem State.timerLaw_iff {s : State} : s.TimerLaw ↔
    (∀ p, HoldOnTime s.time (s.hold p)) ∧ (∀ p, (s.healthOf p).OnTime s.time) ∧ ∀ k, (s.slot k).OnTime s.time := Iff.rfl

section Intervals
variable {now t : Time}

/-- A timer armed with an interval shorter than half a turn of the time base is ahead of it. -/
theorem ahead_of_interval {d : Time} (h : d.msb = false) : (now + d - now).msb = false := by
  rwa [BitVec.add_comm, BitVec.add_sub_cancel]

theorem msb_milliseconds {n : Nat} (hn : n ≤ 12) (x : BitVec n) : (milliseconds x).msb = false := by
  have small : x.toNat < 2 ^ 12 := x.isLt.trans_le (Nat.pow_le_pow_right (by decide) hn)
  rw [Requests.milliseconds_eq, BitVec.msb_eq_decide, decide_eq_false_iff_not, BitVec.toNat_ofNat,
    Nat.mod_eq_of_lt (by omega)]
  omega

theorem msb_holdInterval (x : Byte) : (x.setWidth 32 * Config.holdUnit).msb = false := by
  have := x.isLt
  simp only [Config.holdUnit, BitVec.msb_eq_decide, decide_eq_false_iff_not, BitVec.toNat_mul, BitVec.toNat_setWidth,
    BitVec.toNat_ofNat]
  omega

/-- A timer that is not behind the time base, and that the time base has reached, expires now. -/
theorem eq_of_ahead_of_reached (ha : (t - now).msb = false) (hr : (now - t).msb = false) : t = now := by
  rw [BitVec.msb_eq_decide, decide_eq_false_iff_not, BitVec.toNat_sub] at ha hr
  apply BitVec.eq_of_toNat_eq
  omega

/-- A timer that the time base has not reached is still not passed one unit later. -/
theorem ahead_of_unreached (hr : (now - t).msb = true) : (t - (now + 1#32)).msb = false := by
  rw [BitVec.msb_eq_decide, decide_eq_false_iff_not, BitVec.toNat_sub]
  rw [BitVec.msb_eq_decide, decide_eq_true_eq, BitVec.toNat_sub] at hr
  rw [BitVec.toNat_add, BitVec.toNat_ofNat]
  omega

end Intervals

/-! ### What the Health Unit and the Slot Table do to the timers of one record -/

section Records
variable {now : Time} {g : Health} {r : Slot} {p : Port}

/-- A change of the health state that lets no port join REJOINING, and leaves the quiet interval. -/
theorem Health.OnTime.of_state {g' : Health} {c : Prop} [Decidable c] {x : HealthState} (h : g.OnTime now)
    (hx : x ≠ .rejoining) (hs : g'.state = if c then x else g.state) (hq : g'.quiet = g.quiet) :
    g'.OnTime now := fun e he hd => by
  rw [hs] at he
  split at he
  · exact absurd he hx
  · exact h e he (hq ▸ hd)

theorem Health.onTime_of_disarmed (h : g.quiet = none) : g.OnTime now := fun e _ he => by cases h.symm.trans he

/-- A quiet interval that begins now (R131, R133). -/
theorem Health.onTime_of_begun (h : g.quiet = some (now + Config.quietSpan)) : g.OnTime now := fun e _ he => by
  cases h.symm.trans he
  exact ahead_of_interval (by decide)

theorem Health.OnTime.raised (h : g.OnTime now) (n : Nat) : (g.raised n).OnTime now := h.of_state (by decide) rfl rfl

theorem Health.OnTime.credited (h : g.OnTime now) : g.credited.OnTime now := h.of_state (by decide) rfl rfl

theorem Health.onTime_detachedAt : (g.detachedAt now).OnTime now := by
  unfold Health.detachedAt
  dsimp only
  split
  · exact Health.onTime_of_begun rfl
  · exact Health.onTime_of_disarmed rfl

theorem Slot.onTime_of_disarmed (hd : r.deadline = none) (hf : r.freshness = none) : r.OnTime now := fun d h => by
  rcases h with h | h
  · cases hd.symm.trans h
  · cases hf.symm.trans h

theorem Slot.onTime_restarted : r.restarted.OnTime now := by
  unfold Slot.restarted
  split <;> exact Slot.onTime_of_disarmed rfl rfl

/-- A round begins, and its deadline is armed (R93). -/
theorem Slot.OnTime.armDeadline (h : r.OnTime now) (x : Byte) :
    { r.addRequester p with deadline := some (now + milliseconds x) }.OnTime now := fun d hd => by
  rcases hd with hd | hd
  · cases hd
    exact ahead_of_interval (msb_milliseconds (by decide) x)
  · exact h d (.inr hd)

theorem Slot.OnTime.disarmDeadline (h : r.OnTime now) (x : PortSet) :
    { r with requesters := x, deadline := none }.OnTime now := fun d hd => h d (.inr (hd.resolve_left nofun))

theorem Slot.OnTime.disarmFreshness (h : r.OnTime now) (b : Bool) :
    { r with freshness := none, stale := b }.OnTime now := fun d hd => h d (.inl (hd.resolve_right nofun))

theorem Slot.OnTime.dropRequester (h : r.OnTime now) (p : Port) : (r.dropRequester p).OnTime now := by
  unfold Slot.dropRequester
  dsimp only
  split
  · split
    · exact h.disarmDeadline _
    · exact h
  · exact h

/-- A landing's freshness timer is armed, or left (R112). -/
theorem Slot.OnTime.land (h : r.OnTime now) :
    { r with
      stale := false
      freshness :=
        if r.state ≠ SlotState.retiring ∧ r.config.freshnessLimit ≠ 0#12 then
          some (now + milliseconds r.config.freshnessLimit)
        else r.freshness }.OnTime now := fun d hd => by
  dsimp only at hd
  split at hd
  · rcases hd with hd | hd
    · exact h d (.inl hd)
    · cases hd
      exact ahead_of_interval (msb_milliseconds (Nat.le_refl _) _)
  · exact h d hd

end Records

/-! ### The time base moves (R108, R111) -/

section Moves
variable {s : State}

/-- Where no expiry waits for its block, the time base has reached no armed timer. -/
theorem State.unreached_of_timerDue_eq_false (h : s.timerDue = false) :
    (∀ p g, s.hold p = some g → s.reached g.expiry = false) ∧
    (∀ p e, (s.healthOf p).state = .rejoining → (s.healthOf p).quiet = some e → s.reached e = false) ∧
    ∀ k d, (s.slot k).deadline = some d ∨ (s.slot k).freshness = some d → s.reached d = false := by
  have unreached {o : Option Time} (ho : s.ripeTimer o = false) (d : Time) (hd : o = some d) : s.reached d = false := by
    subst hd
    exact ho
  simp only [State.timerDue, Bool.or_eq_false_iff, List.any_eq_false, Bool.not_eq_true] at h
  obtain ⟨ports, slots⟩ := h
  refine ⟨fun p g hg => ?_, fun p e hs he => ?_, fun k d hd => ?_⟩
  · obtain ⟨hold, -⟩ := ports p (Port.mem_all p)
    exact unreached hold _ (by rw [hg]; rfl)
  · obtain ⟨-, quiet⟩ := ports p (Port.mem_all p)
    rw [hs] at quiet
    exact unreached quiet _ he
  · obtain ⟨deadline, freshness⟩ := slots k (List.mem_finRange k)
    exact hd.elim (unreached deadline d) (unreached freshness d)

/-- The time base advances past no timer where no expiry waits. -/
theorem State.timerLaw_advanced (h : s.timerDue = false) : { s with prescaler := 0#4, time := s.time + 1#32 }.TimerLaw := by
  have next {t : Time} (ht : s.reached t = false) : (t - (s.time + 1#32)).msb = false :=
    ahead_of_unreached (by simpa [State.reached] using ht)
  obtain ⟨holds, quiets, slots⟩ := State.unreached_of_timerDue_eq_false h
  exact ⟨fun p g hg => next (holds p g hg), fun p e hs he => next (quiets p e hs he), fun k d hd => next (slots k d hd)⟩

theorem State.hold_moveTimers (d : Time) (p : Port) :
    (s.moveTimers d).hold p = (s.hold p).map fun g => { g with expiry := g.expiry + d } := PerPort.get_ofFn _ _

theorem State.healthOf_moveTimers (d : Time) (p : Port) :
    (s.moveTimers d).healthOf p = { s.healthOf p with quiet := (s.healthOf p).quiet.map (· + d) } := PerPort.get_ofFn _ _

theorem State.slot_moveTimers (d : Time) (k : SlotIx) :
    (s.moveTimers d).slot k =
      { s.slot k with deadline := (s.slot k).deadline.map (· + d), freshness := (s.slot k).freshness.map (· + d) } :=
  Table.get_map _ _ _

/-- A timer moved with the time base is as far ahead of it as before. -/
theorem State.timerLaw_moved (h : s.TimerLaw) (v : Time) :
    { s.moveTimers (v - s.time) with time := v, prescaler := 0#4 }.TimerLaw := by
  have moved {o : Option Time} {t : Time} (ho : ∀ d, o = some d → s.ahead d) (ht : o.map (· + (v - s.time)) = some t) :
      (t - v).msb = false := by
    obtain ⟨d, hd, rfl⟩ := Option.map_eq_some_iff.mp ht
    have same : d + (v - s.time) - v = d - s.time := by bv_omega
    rw [same]
    exact ho d hd
  obtain ⟨holds, quiets, slots⟩ := h
  refine ⟨fun p g hg => ?_, fun p e hs he => ?_, fun k d hd => ?_⟩
  · obtain ⟨g, held, rfl⟩ := Option.map_eq_some_iff.mp ((s.hold_moveTimers _ p).symm.trans hg)
    exact moved (o := some g.expiry) (fun d hd => by cases hd; exact holds p g held) rfl
  · have health := s.healthOf_moveTimers (v - s.time) p
    have rejoining := (congrArg Health.state health).symm.trans hs
    exact moved (fun d hd => quiets p d rejoining hd) ((congrArg Health.quiet health).symm.trans he)
  · have slot := s.slot_moveTimers (v - s.time) k
    rcases hd with hd | hd
    · exact moved (fun d h => slots k d (.inl h)) ((congrArg Slot.deadline slot).symm.trans hd)
    · exact moved (fun d h => slots k d (.inr h)) ((congrArg Slot.freshness slot).symm.trans hd)

end Moves
end Sys2Proof.Machine
end

section
namespace Sys2Proof.Machine
open Sys2Proof

/-! ### Steps that keep the time base and R108 -/

/-- `t` comes from `s` with R108 kept and, where `fixed` holds, with the time base and the prescaler as they are. -/
def State.KeepsTime (fixed : Prop) (s t : State) : Prop :=
  (fixed → t.time = s.time ∧ t.prescaler = s.prescaler) ∧ (s.TimerLaw → t.TimerLaw)

namespace State.KeepsTime

section Updates
variable {fixed : Prop} {b s t : State}

theorem refl (s : State) : KeepsTime fixed s s := ⟨fun _ => ⟨rfl, rfl⟩, id⟩

/-- An operation with a frame whose fields other than those of the timers may change. -/
theorem of_eq (e : t = s) (h : KeepsTime fixed b s) : KeepsTime fixed b t := e ▸ h

theorem ite {c : Prop} [Decidable c] (ht : c → KeepsTime fixed b s) (he : ¬c → KeepsTime fixed b t) :
    KeepsTime fixed b (if c then s else t) := by
  split
  · next hc => exact ht hc
  · next hc => exact he hc

variable (h : KeepsTime fixed b s)
include h

theorem foldl {α : Type} {f : State → α → State}
    (hf : ∀ u a, KeepsTime fixed b u → KeepsTime fixed b (f u a)) (l : List α) :
    KeepsTime fixed b (l.foldl f s) :=
  foldl_keeps hf l s h

/-- A change of the records under a time base that stands. -/
theorem of_law (ht : t.time = s.time) (hp : t.prescaler = s.prescaler) (hl : s.TimerLaw → t.TimerLaw) :
    KeepsTime fixed b t := by
  obtain ⟨clock, law⟩ := h
  rw [KeepsTime, ht, hp]
  exact ⟨clock, hl ∘ law⟩

theorem modSlot (k : SlotIx) {f : Slot → Slot} (hf : (s.slot k).OnTime s.time → (f (s.slot k)).OnTime s.time) :
    KeepsTime fixed b (s.modSlot k f) := by
  refine h.of_law rfl rfl fun ⟨holds, health, slots⟩ => State.timerLaw_iff.mpr ⟨holds, health, fun j => ?_⟩
  rw [State.slot_modSlot]
  split
  · exact hf (slots k)
  · exact slots j

theorem mapSlots {f : Slot → Slot} (hf : ∀ r : Slot, r.OnTime s.time → (f r).OnTime s.time) :
    KeepsTime fixed b (s.mapSlots f) := by
  refine h.of_law rfl rfl fun ⟨holds, health, slots⟩ => State.timerLaw_iff.mpr ⟨holds, health, fun j => ?_⟩
  rw [State.slot_mapSlots]
  exact hf _ (slots j)

theorem modHealth (p : Port) {f : Health → Health} (hf : (s.healthOf p).OnTime s.time → (f (s.healthOf p)).OnTime s.time) :
    KeepsTime fixed b (s.modHealth p f) := by
  refine h.of_law rfl rfl fun ⟨holds, health, slots⟩ => State.timerLaw_iff.mpr ⟨holds, fun q => ?_, slots⟩
  rw [State.healthOf_modHealth]
  split
  · exact hf (health p)
  · exact health q

theorem setHold (p : Port) {o : Option Hold} (ho : HoldOnTime s.time o) : KeepsTime fixed b (s.setHold p o) := by
  refine h.of_law rfl rfl fun ⟨holds, health, slots⟩ => State.timerLaw_iff.mpr ⟨fun q => ?_, health, slots⟩
  rw [State.hold_setHold]
  split
  · exact ho
  · exact holds q

end Updates

/-! ### The operations of the blocks

R108 reads the time base and, of every record, its timers. An operation that changes other fields has it by definition, or by
its frame. What is left are the operations that arm, move or disarm a timer, or let a port join REJOINING. Each lemma goes on from
a state `s` that an event has come to, beginning in `b`. -/

section Operations
variable {fixed : Prop} {b s : State} (h : KeepsTime fixed b s)
include h

theorem modPort (p : Port) (f : PortUnit → PortUnit) : KeepsTime fixed b (s.modPort p f) := h
theorem clearHold (p : Port) : KeepsTime fixed b (s.setHold p none) := h.setHold p nofun
theorem modFlight (f : Landing → Landing) : KeepsTime fixed b (s.modFlight f) := h
theorem report (p : Port) (r : ReportKind) : KeepsTime fixed b (s.report p r) := h
theorem post (p : Port) (r : Result) : KeepsTime fixed b (s.post p r) := h
theorem setPhase (p : Port) (ph : Phase) : KeepsTime fixed b (s.setPhase p ph) := h
theorem unripen (k : SlotIx) : KeepsTime fixed b (s.unripen k) := h
theorem withdraw (p : Port) : KeepsTime fixed b (s.withdraw p) := h
theorem sealNotes (k : SlotIx) : KeepsTime fixed b (s.sealNotes k) := h
theorem freeToken (p : Port) : KeepsTime fixed b (s.freeToken p) := ite (fun _ => h) fun _ => h
theorem pick (n : Nat) : KeepsTime fixed b (s.pick n).2 := of_eq (s.pick_frame n) h
theorem shuffle {α : Type} (l : List α) : KeepsTime fixed b (s.shuffle l).2 := of_eq (s.shuffle_frame l) h
theorem completeAll (c : Command) : KeepsTime fixed b (s.completeAll c) := of_eq (s.completeAll_frame c) h
theorem viewsGone (k : SlotIx) : KeepsTime fixed b (s.viewsGone k) := of_eq (s.viewsGone_frame k) h
theorem ripen (k : SlotIx) : KeepsTime fixed b (s.ripen k) := of_eq (s.ripen_frame k) h
theorem recordLanding (o : Offer) (d : Bool) : KeepsTime fixed b (s.recordLanding o d) :=
  of_eq (s.recordLanding_frame o d) h
theorem appendNote (p : Port) (n : Note) : KeepsTime fixed b (s.appendNote p n) := of_eq (s.appendNote_frame p n) h
theorem appendEach (ps : PortSet) (n : Port → Note) : KeepsTime fixed b (s.appendEach ps n) :=
  of_eq (s.appendEach_frame ps n) h
theorem tell (ps : PortSet) (r : Reason) (k : SlotIx) : KeepsTime fixed b (s.tell ps r k) := h.appendEach ps _
theorem tellDropped (src : Source) (k : SlotIx) : KeepsTime fixed b (s.tellDropped src k) :=
  of_eq (s.tellDropped_frame src k) h
theorem setParked (k : SlotIx) (o : Option Offer) : KeepsTime fixed b (s.setParked k o) := h.modSlot k id
theorem popNote (p : Port) : KeepsTime fixed b (s.popNote p) := by
  unfold State.popNote
  split <;> exact h

/-! The Health Unit's taking of reports. -/

theorem markDetaching (p : Port) (c : DetachCause) : KeepsTime fixed b (s.markDetaching p c) :=
  have marked : KeepsTime fixed b (s.modHealth p fun g => { g with mark := true, cause := c }) := h.modHealth p id
  of_eq (State.answerDetached_frame _ p) marked

theorem takeDisturbance (p : Port) : KeepsTime fixed b (s.takeDisturbance p) :=
  ite (fun _ => h.modHealth p fun _ => Health.onTime_of_begun rfl) fun _ => h

theorem takePenalty (p : Port) (n : Nat) : KeepsTime fixed b (s.takePenalty p n) := by
  have counted : KeepsTime fixed b (if (s.healthOf p).score + n ≤ Config.scoreMax then
      s.modHealth p fun x => x.raised ((s.healthOf p).score + n) else s.markDetaching p .score) :=
    ite (fun _ => h.modHealth p fun hp => hp.raised _) fun _ => h.markDetaching p _
  unfold State.takePenalty
  refine ite (fun _ => h) fun _ => ?_
  split
  · exact counted
  · exact counted
  · exact h
  · exact h.takeDisturbance p

theorem takeReport (r : Report) : KeepsTime fixed b (s.takeReport r) := by
  unfold State.takeReport
  split
  · exact h.takePenalty _ _
  · exact ite (fun _ => h) fun _ => h.modHealth _ Health.OnTime.credited
  · exact h.takeDisturbance _

theorem takeReportsOf (rs : List Report) (p : Port) : KeepsTime fixed b (s.takeReportsOf rs p) :=
  ite (fun _ => h.foldl (fun _ r hu => hu.takeReport r) _) fun _ => (h.pick 2).foldl (fun _ r hu => hu.takeReport r) _

theorem waitToDetach (ps : List Port) : KeepsTime fixed b (s.waitToDetach ps) := by
  cases ps <;> exact h

theorem settle : KeepsTime fixed b s.settle := by
  have emptied : KeepsTime fixed b { s with reports := [] } := h
  exact (emptied.foldl (fun _ p hu => hu.takeReportsOf _ p) _).waitToDetach _

/-! Freezing and the watch. -/

theorem dueToRipe : KeepsTime fixed b s.dueToRipe := by
  have emptied : KeepsTime fixed b { s with due := [] } := h
  refine emptied.foldl (fun u o hu => ?_) s.due
  exact ripen (s := u.setParked o.slot (some o)) (hu.setParked _ _) _

theorem becomeFrozen : KeepsTime fixed b s.becomeFrozen := by
  have frozen : KeepsTime fixed b { s with exchange := .frozen, freezeMark := false, task := none } := h
  exact ((frozen.dueToRipe.completeAll .freeze).completeAll .step).completeAll .resume

theorem callFreeze : KeepsTime fixed b s.callFreeze := by
  unfold State.callFreeze
  split
  · exact ite (fun _ => h) fun _ => h.becomeFrozen
  · dsimp only
    split
    · exact ite (fun _ => h) fun _ => becomeFrozen (s := { s with freezeMark := true }) h
    all_goals exact h
  all_goals exact h

theorem drainNext : KeepsTime fixed b s.drainNext := by
  unfold State.drainNext
  refine ite (fun _ => h.becomeFrozen) fun _ => ?_
  split
  · exact h
  · exact completeAll (s := { s with exchange := .running, task := none }) h .resume

theorem landingEnded : KeepsTime fixed b s.landingEnded := by
  unfold State.landingEnded
  refine ite (fun _ => h) fun _ => ?_
  split
  · exact h.becomeFrozen
  · split
    · exact h.drainNext
    all_goals exact h.becomeFrozen
  all_goals exact h

theorem offerAct (kind : ActKind) (d : Bool) (k : SlotIx) (src : Source) : KeepsTime fixed b (s.offerAct kind d k src) := by
  have recorded : KeepsTime fixed b (s.recordMatch kind d k src) := h
  unfold State.offerAct
  refine ite (fun _ => ?_) fun _ => h
  dsimp only
  split
  · exact recorded
  all_goals exact recorded.callFreeze

/-! Landings write the value part of a slot record and move its pending value. -/

theorem beginLanding (o : Offer) : KeepsTime fixed b (s.beginLanding o) := h.modSlot o.slot id
theorem park (o : Offer) : KeepsTime fixed b (s.park o) := h.modSlot o.slot id

/-- A landing keeps the timers where leaving its place and staying there do. -/
theorem tryLanding (o : Offer) (d : Bool) {gone stays : State → State}
    (hg : ∀ t : State, KeepsTime fixed b t → KeepsTime fixed b (gone t))
    (hs : ∀ t : State, KeepsTime fixed b t → KeepsTime fixed b (stays t)) :
    KeepsTime fixed b (s.tryLanding o d gone stays) := by
  have recorded := h.recordLanding o d
  rcases s.tryLanding_cases o d gone stays with ⟨-, e⟩ | ⟨-, e⟩ | ⟨-, e⟩ <;> rw [e]
  · exact (hg _ recorded).beginLanding o
  · exact ((hg _ recorded).beginLanding o).callFreeze
  · exact (hs _ recorded).becomeFrozen

theorem commitOnEmpty (k : SlotIx) : KeepsTime fixed b (s.commitOnEmpty k) := by
  unfold State.commitOnEmpty
  split
  · exact h
  · next o _ =>
    have due : KeepsTime fixed b (s.toDue k o) := h.setParked k none
    split
    · exact ite (fun _ => due) fun _ =>
        h.tryLanding o true (fun _ ht => ht.setParked k none) fun _ ht => (ht.setParked k _).ripen k
    · exact due
    · exact h.ripen k
    · exact h.ripen k
    · exact h

theorem takeHead (o : Offer) (rest : List Offer) : KeepsTime fixed b (s.takeHead o rest) :=
  ite (fun _ => h.tryLanding o false (fun _ ht => ht) fun _ ht => ht) fun _ => park (s := { s with queue := rest }) h o

theorem takeDue (o : Offer) (rest : List Offer) : KeepsTime fixed b (s.takeDue o rest) :=
  h.tryLanding o true (fun _ ht => ht) fun _ ht => ht

theorem takeRipe (k : SlotIx) : KeepsTime fixed b (s.takeRipe k) := by
  unfold State.takeRipe
  split
  · exact h
  · exact h.tryLanding _ true (fun _ ht => ht.setParked k none) fun _ ht => ht.setParked k _

theorem takeDrain (k : SlotIx) : KeepsTime fixed b (s.takeDrain k) := by
  unfold State.takeDrain
  refine ite (fun _ => h.takeRipe k) fun _ => ?_
  dsimp only
  split
  · exact h.drainNext.takeRipe _
  all_goals exact h.drainNext

theorem takeStep (i : Item) : KeepsTime fixed b (s.takeStep i) := by
  cases i with
  | ripe k => exact ite (fun _ => h.takeRipe k) fun _ => h.becomeFrozen
  | head n =>
    unfold State.takeStep
    dsimp only
    split
    · next o rest _ =>
      have taken := h.takeHead o rest
      exact ite (fun _ => ite (fun _ => taken) fun _ => taken.becomeFrozen) fun _ => h.becomeFrozen
    · exact h.becomeFrozen

theorem takeNext : KeepsTime fixed b s.takeNext := by
  unfold State.takeNext
  refine ite (fun _ => h) fun _ => ?_
  split
  · split
    · exact h.takeDue _ _
    · split
      · exact h.takeHead _ _
      · exact h
  · split
    · exact h.takeStep _
    · exact h.takeDrain _
    · exact h
  all_goals exact h

/-! Retirement, holds and views. -/

theorem completeRetirement (k : SlotIx) : KeepsTime fixed b (s.completeRetirement k) := by
  have told := (h.tell (s.subscribers k) .retired k).sealNotes k
  exact (told.modSlot k fun _ => Slot.onTime_of_disarmed rfl rfl).viewsGone k

theorem testRetirement (k : SlotIx) : KeepsTime fixed b (s.testRetirement k) := ite (fun _ => h.completeRetirement k) fun _ => h

theorem endHold (p : Port) : KeepsTime fixed b (s.endHold p) := by
  unfold State.endHold
  split
  · exact h
  · next o _ =>
    have unheld := h.clearHold p
    exact ite (fun _ => (unheld.commitOnEmpty o.slot).testRetirement o.slot) fun _ => unheld

theorem reclaimDue (k : SlotIx) : KeepsTime fixed b (s.reclaimDue k) := by
  unfold State.reclaimDue
  split
  · exact h.setParked k _
  · exact h

theorem capture (p : Port) (k : SlotIx) : KeepsTime fixed b (s.capture p k) := by
  have held : HoldOnTime s.time (some (s.newHold p k)) := fun g hg => by
    cases hg
    exact ahead_of_interval (msb_holdInterval _)
  exact (h.setHold p held).modSlot k id

theorem grantView (p : Port) (k : SlotIx) : KeepsTime fixed b (s.grantView p k) :=
  (((((h.endHold p).capture p k).reclaimDue k).unripen k).post p .done).offerAct _ _ _ _

theorem takeView (p : Port) (n : Byte) : KeepsTime fixed b (takeView p n s) := by
  unfold Machine.takeView
  split
  · exact h
  · next k _ =>
    exact ite (fun _ => ((h.capture p k).post p .done).offerAct _ _ _ _) fun _ => ite (fun _ => h) fun _ => h.grantView p k

theorem grantWaiting (p : Port) : KeepsTime fixed b (s.grantWaiting p) := by
  unfold State.grantWaiting
  split
  · exact ite (fun _ => h) fun _ => h.grantView p _
  · exact ite (fun _ => h) fun _ => h
  all_goals exact h

end Operations

end State.KeepsTime
end Sys2Proof.Machine
end

section
namespace Sys2Proof.Machine
open Sys2Proof

/-! ### The timers under the rest of the blocks -/

namespace State.KeepsTime

section Blocks
variable {fixed : Prop} {b s : State} (h : KeepsTime fixed b s)
include h

theorem takeNote (p : Port) : KeepsTime fixed b (takeNote p s) := by
  have picked := h.pick 2
  exact ite (fun _ => ite (fun _ => (picked.popNote p).endHold p) fun _ => (picked.endHold p).popNote p)
    fun _ => (h.popNote p).endHold p

theorem expireHold (p : Port) : KeepsTime fixed b (expireHold p s) := by
  unfold Machine.expireHold
  split
  · exact h
  · exact ite (fun _ => (h.endHold p).appendNote p _) fun _ => h

theorem takeRelease (p : Port) : KeepsTime fixed b (takeRelease p s) := by
  unfold Machine.takeRelease
  split
  · exact h
  · exact h.endHold p

theorem takePublish (p : Port) (n : Byte) : KeepsTime fixed b (takePublish p n s) := by
  unfold Machine.takePublish
  split <;> exact h

theorem beginRound (p : Port) (k : SlotIx) : KeepsTime fixed b (s.beginRound p k) := by
  have begun : KeepsTime fixed b (s.modSlot k fun r =>
      { r.addRequester p with deadline := some (s.time + milliseconds (s.slot k).config.requestDeadline) }) :=
    h.modSlot k fun hr => hr.armDeadline _
  unfold State.beginRound
  dsimp only
  split
  · exact begun.appendNote _ _
  · exact begun

theorem takeRequest (p : Port) (n : Byte) : KeepsTime fixed b (takeRequest p n s) := by
  unfold Machine.takeRequest
  split
  · exact h
  · next k _ =>
    have joined : KeepsTime fixed b (s.modSlot k (Slot.addRequester p)) := h.modSlot k id
    exact ite (fun _ => ((h.beginRound p k).post p .done).offerAct _ _ _ _) fun _ => (joined.post p .done).offerAct _ _ _ _

/-! The end of a round, and the parts of a landing. -/

theorem endRound (k : SlotIx) : KeepsTime fixed b (s.modSlot k Slot.endRound) :=
  h.modSlot k fun hr => hr.disarmDeadline _

theorem timeOutRequesters (k : SlotIx) : KeepsTime fixed b (s.timeOutRequesters k) := (h.tell _ _ k).endRound k

theorem expireDeadline (k : SlotIx) : KeepsTime fixed b (expireDeadline k s) := by
  unfold Machine.expireDeadline
  split
  · exact h
  · exact ite (fun _ => ite (fun _ => h.timeOutRequesters k) fun _ => h.timeOutRequesters k) fun _ => h

theorem serveLanding : KeepsTime fixed b (serveLanding s) := by
  unfold Machine.serveLanding
  split
  · exact h
  · split
    · exact h
    · exact h.endRound _

theorem notifyLanding : KeepsTime fixed b (notifyLanding s) := by
  unfold Machine.notifyLanding
  split
  · exact h
  · next l _ =>
    split
    · exact h
    · exact ite (fun _ => h) fun _ => modFlight (appendEach (h.modSlot _ id) _ _) _

theorem timeLanding : KeepsTime fixed b (timeLanding s) := by
  unfold Machine.timeLanding
  split
  · exact h
  · next l _ => exact ite (fun _ => h) fun _ => modFlight (h.modSlot _ Slot.OnTime.land) _

theorem landingOver (k : SlotIx) : KeepsTime fixed b (s.landingOver k) := by
  have counted (n : Nat) : KeepsTime fixed b { s with freeCount := n } := h
  rcases s.landingOver_cases k with e | ⟨n, e | ⟨p, e | e⟩⟩ <;> rw [e]
  · exact h.landingEnded
  · exact (counted n).landingEnded.completeRetirement k
  · exact (counted n).landingEnded.grantWaiting p
  · exact ((counted n).grantWaiting p).landingEnded

theorem endLanding : KeepsTime fixed b (endLanding s) := by
  unfold Machine.endLanding
  split
  · exact h
  · exact ite (fun _ => landingOver (s := { s with flight := none }) h _) fun _ => h

/-! The time base. -/

/-- The time base passes no timer: it stands while one has been reached and is not taken (R108). -/
theorem tick (hf : fixed → s.timeRuns = false) : KeepsTime fixed b (tick s) := by
  unfold Machine.tick
  refine ite (fun runs => ?_) fun _ => h
  have moves : ¬fixed := fun x => by cases runs.symm.trans (hf x)
  obtain ⟨-, law⟩ := h
  refine ite (fun _ => ite (fun _ => ?_) fun notDue => ?_) fun _ => ?_
  · exact ⟨fun x => absurd x moves, law⟩
  · exact ⟨fun x => absurd x moves, fun _ => State.timerLaw_advanced (by simpa using notDue)⟩
  · exact ⟨fun x => absurd x moves, law⟩

/-- SET_TIME moves every timer with the time base (R111). -/
theorem takeSetTime (hf : ¬fixed) (p : Port) : KeepsTime fixed b (takeSetTime p s) := by
  obtain ⟨-, law⟩ := h
  exact ⟨fun x => absurd x hf, fun hb => State.timerLaw_moved (law hb) _⟩

theorem expireFreshness (k : SlotIx) : KeepsTime fixed b (expireFreshness k s) := by
  unfold Machine.expireFreshness
  split
  · exact h
  · exact ite (fun _ => tell (h.modSlot k fun hr => hr.disarmFreshness _) _ _ k) fun _ => h

/-! The Slot Table's commands. -/

theorem ifToken (p : Port) {f : State → State} (hf : KeepsTime fixed b (f s)) : KeepsTime fixed b (s.ifToken p f) :=
  ite (fun _ => hf) fun _ => h

theorem takeConfigure (p : Port) (n : Byte) : KeepsTime fixed b (takeConfigure p n s) := by
  unfold Machine.takeConfigure
  split
  · exact h
  · next k _ =>
    have configured (c : SlotConfig) (outside : Bool) : KeepsTime fixed b (s.modSlot k fun _ => Slot.configured c outside) :=
      h.modSlot k fun _ => Slot.onTime_of_disarmed rfl rfl
    exact ((configured _ _).post p .done).offerAct _ _ _ _

theorem dropParked (k : SlotIx) : KeepsTime fixed b (s.dropParked k) := by
  have reclaimed := h.reclaimDue k
  unfold State.dropParked
  dsimp only
  split
  · exact reclaimed
  · exact ((reclaimed.setParked k none).unripen k).tellDropped _ k

theorem dropEntries (k : SlotIx) : KeepsTime fixed b (s.dropEntries k) := by
  have others : KeepsTime fixed b { s with queue := s.queue.filter fun o => o.slot != k } := h
  exact others.foldl (fun _ o hu => hu.tellDropped o.source k) _

theorem disarmFreshness (k : SlotIx) : KeepsTime fixed b (s.modSlot k fun r => { r with freshness := none }) :=
  h.modSlot k fun hr => hr.disarmFreshness _

theorem retireSteps (k : SlotIx) : KeepsTime fixed b (s.retireSteps k) := by
  have retiring : KeepsTime fixed b (s.modSlot k fun r => { r with state := .retiring }) := h.modSlot k id
  exact (((retiring.dropEntries k).dropParked k).timeOutRequesters k).disarmFreshness k

theorem takeRetire (p : Port) (n : Byte) : KeepsTime fixed b (takeRetire p n s) := by
  unfold Machine.takeRetire
  split
  · exact h
  · next k _ =>
    exact (((h.retireSteps k).testRetirement k).post p .done).offerAct _ _ _ _

/-! Detachment. -/

theorem dropRequester (p : Port) : KeepsTime fixed b (s.mapSlots (Slot.dropRequester p)) :=
  h.mapSlots fun _ hr => hr.dropRequester p

theorem detachRequests (p : Port) : KeepsTime fixed b (s.detachRequests p) := by
  have left : KeepsTime fixed b { s.mapSlots (Slot.dropRequester p) with lostOwners := s.lostOwners.insert p } :=
    h.dropRequester p
  exact (left.shuffle _).foldl (fun _ k hu => hu.timeOutRequesters k) _

theorem flushNotes (p : Port) : KeepsTime fixed b (s.flushNotes p) :=
  mapSlots (s := s.modNotes p fun m => { m with queue := [] }) h fun _ hr => hr

/-- A port that leaves REJOINING has no quiet interval left (R130). -/
theorem expelOutside (p : Port) : KeepsTime fixed b (s.expelOutside p) :=
  ite (fun _ => h.modHealth p fun _ => Health.onTime_of_disarmed rfl) fun _ => h

theorem finishExpels (p : Port) : KeepsTime fixed b (s.finishExpels p) := by
  refine foldl h (fun t q ht => ?_) _
  split
  · exact ite (fun _ => post (ite (fun _ => ht) fun _ => ht.expelOutside p) q _) fun _ => ht
  all_goals exact ht

theorem orphan (k : SlotIx) : KeepsTime fixed b (s.orphan k) := tell (h.modSlot k id) _ _ _

theorem detachOrphan (p : Port) : KeepsTime fixed b (s.detachOrphan p) :=
  (((h.shuffle _).foldl (fun _ k hu => hu.orphan k) _).modHealth p fun _ => Health.onTime_detachedAt).finishExpels p

theorem detachStep (p : Port) (st : DetachStep) : KeepsTime fixed b (s.detachStep p st) := by
  cases st with
  | token => exact ite (fun _ => h) fun _ => h
  | hold => exact h.endHold p
  | publications =>
    exact h.mapSlots fun r hr => by split <;> exact hr
  | requests => exact h.detachRequests p
  | notes => exact h.flushNotes p
  | orphan => exact h.detachOrphan p

omit h in
theorem runDetach (p : Port) (upTo : DetachStep) (fuel : Nat) (st : DetachStep) (s : State) (h : KeepsTime fixed b s) :
    KeepsTime fixed b (s.runDetach p upTo fuel st) := by
  induction fuel generalizing s st with
  | zero => exact h
  | succ fuel ih =>
    have stepped := (h.detachStep p st).settle
    unfold State.runDetach
    refine ite (fun _ => h) fun _ => ?_
    split
    · exact stepped
    · exact ih _ _ stepped

theorem runDetachment (p : Port) (upTo : DetachStep) : KeepsTime fixed b (runDetachment p upTo s) := by
  unfold Machine.runDetachment
  split
  · exact ite (fun _ => runDetach p upTo 6 _ s h) fun _ => h
  · split
    · exact ite (fun _ => runDetach p upTo 6 .token { s with detachQueue := dropWaiting p s.detachQueue } h) fun _ => h
    · exact h

theorem takeExpel (p : Port) : KeepsTime fixed b (takeExpel p s) := by
  unfold Machine.takeExpel
  split
  · exact h
  · next q _ =>
    have begins : KeepsTime fixed b ((s.setPhase p (.expelling q true)).markDetaching q .expelled) :=
      (h.setPhase p _).markDetaching q _
    refine ite (fun _ => h) fun _ => ite (fun _ => h) fun _ => ?_
    split
    · exact begins.waitToDetach [q]
    · exact begins.waitToDetach [q]
    · exact h.expelOutside q
    · exact h.expelOutside q

theorem reportActive (p : Port) : KeepsTime fixed b (s.reportActive p) := by
  have cleared : KeepsTime fixed b (s.mapSlots fun r => if r.config.owner = p then { r with orphaned := false } else r) :=
    h.mapSlots fun _ hr => by split <;> exact hr
  exact cleared

/-- The quiet interval that ends now is followed by one that begins now (R133). -/
theorem endQuiet (p : Port) : KeepsTime fixed b (endQuiet p s) := by
  unfold Machine.endQuiet
  dsimp only
  split
  · exact h
  · next t armed =>
    refine ite (fun due => ite (fun _ => ?_) fun _ => h.modHealth p fun hp => ?_) fun _ => h
    · exact (h.modHealth p fun _ => Health.onTime_of_disarmed rfl).reportActive p
    · obtain ⟨rejoining, -, reached⟩ := due
      obtain rfl := eq_of_ahead_of_reached (hp t rejoining armed) (by simpa [State.reached] using reached)
      exact Health.onTime_of_begun rfl

/-! The commands that reach no slot. -/

theorem takeRejoinPolicy (p : Port) : KeepsTime fixed b (takeRejoinPolicy p s) := by
  unfold Machine.takeRejoinPolicy
  dsimp only
  split
  · exact h
  · refine ite (fun _ => h) fun _ => post ?_ p _
    exact h.modHealth _ id

theorem takeRejoin (p : Port) : KeepsTime fixed b (takeRejoin p s) := by
  unfold Machine.takeRejoin
  split
  · exact (h.modHealth p fun _ => Health.onTime_of_begun rfl).post p _
  all_goals exact h

theorem takeClaim (p : Port) : KeepsTime fixed b (takeClaim p s) := by
  unfold Machine.takeClaim
  refine ite (fun _ => h) fun _ => ?_
  split
  · exact ite (fun _ => h) fun _ => h
  · exact h

theorem takeFreeze (p : Port) : KeepsTime fixed b (takeFreeze p s) := by
  unfold Machine.takeFreeze
  split
  · exact h.callFreeze
  · exact h.callFreeze
  all_goals exact h

theorem takeStepCommand (p : Port) : KeepsTime fixed b (takeStepCommand p s) := by
  unfold Machine.takeStepCommand
  split
  · split
    · exact h
    · split <;> exact h
  all_goals exact h

theorem takeResume (p : Port) : KeepsTime fixed b (takeResume p s) := by
  unfold Machine.takeResume
  split
  · split <;> exact h
  all_goals exact h

theorem takeInspect (p : Port) : KeepsTime fixed b (takeInspect p s) := by
  unfold Machine.takeInspect
  refine ite (fun _ => h) fun _ => ?_
  split
  · exact h
  · split <;> exact h

theorem takeCancelHead (p : Port) : KeepsTime fixed b (takeCancelHead p s) := by
  unfold Machine.takeCancelHead
  refine ite (fun _ => h) fun _ => ?_
  split
  · exact h
  · next o rest _ =>
    have taken : KeepsTime fixed b { s with queue := rest } := h
    exact ite (fun _ => taken.timeOutRequesters o.slot) fun _ => taken.tellDropped o.source o.slot

theorem takeArm (p : Port) : KeepsTime fixed b (takeArm p s) := by
  unfold Machine.takeArm
  dsimp only
  split <;> exact h

theorem takeReadCapture (p : Port) : KeepsTime fixed b (takeReadCapture p s) := by
  unfold Machine.takeReadCapture
  split <;> exact h

theorem takeCommand {c : Command} (hf : fixed → c ≠ .setTime) (p : Port) (n : Byte) :
    KeepsTime fixed b (takeCommand c p n s) := by
  cases c with
  | publish => exact h.takePublish p n
  | view => exact h.takeView p n
  | release => exact h.takeRelease p
  | request => exact h.takeRequest p n
  | claimToken => exact h.takeClaim p
  | yieldToken => exact ite (fun _ => h) fun _ => h
  | configureSlot => exact h.ifToken p (h.takeConfigure p n)
  | retireSlot => exact h.ifToken p (h.takeRetire p n)
  | setHoldTimeout => exact h.ifToken p (ite (fun _ => h) fun _ => h)
  | setTime => exact h.ifToken p (h.takeSetTime (fun x => hf x rfl) p)
  | setRejoinPolicy => exact h.ifToken p (h.takeRejoinPolicy p)
  | expel => exact h.ifToken p (h.takeExpel p)
  | restart => exact h.ifToken p h
  | freeze => exact h.ifToken p (h.takeFreeze p)
  | resume => exact h.ifToken p (h.takeResume p)
  | step => exact h.ifToken p (h.takeStepCommand p)
  | inspect => exact h.ifToken p (h.takeInspect p)
  | cancelHead => exact h.ifToken p (h.takeCancelHead p)
  | armWatch => exact h.ifToken p (h.takeArm p)
  | disarmWatch => exact h.ifToken p h
  | readCapture => exact h.ifToken p (h.takeReadCapture p)
  | rejoin => exact h.takeRejoin p
  | resetPort => exact h

/-! The command unit and the resets. -/

theorem resetNotes (p : Port) : KeepsTime fixed b (s.resetNotes p) := h.flushNotes p

theorem resetViewAndNotes (p : Port) : KeepsTime fixed b (s.resetViewAndNotes p) := by
  have picked := h.pick 2
  exact ite (fun _ => ite (fun _ => (picked.endHold p).resetNotes p) fun _ => (picked.resetNotes p).endHold p)
    fun _ => (h.endHold p).resetNotes p

theorem resetPort (p : Port) (busy : Option Busy) : KeepsTime fixed b (s.resetPort p busy) :=
  (((((h.modPort p _).resetViewAndNotes p).withdraw p).dropRequester p).freeToken p).report p _

theorem writeCommand {c : Command} (hf : fixed → c ≠ .setTime) (p : Port) (n : Byte) :
    KeepsTime fixed b (s.writeCommand p c n) := by
  have accepted : KeepsTime fixed b (s.acceptWrite p c n) := h
  exact ite (fun _ => ite (fun _ => h) fun _ => h.resetPort p _) fun _ => ite (fun _ => h) fun _ =>
    ite (fun _ => accepted) fun _ => ite (fun _ => accepted) fun _ => accepted.takeCommand hf p n

theorem writeCommandWord (p : Port) {w : Word} (hf : fixed → Command.ofCode (commandCode w) = none) :
    KeepsTime fixed b (s.writeCommandWord p w) := by
  unfold State.writeCommandWord
  split
  · next c e => exact h.writeCommand (fun x => by cases e.symm.trans (hf x)) p _
  · exact ite (fun _ => h) fun _ => h

theorem writeStored (p : Port) (off : BitVec 6) (w : Word) : KeepsTime fixed b (s.writeStored p off w) := by
  unfold State.writeStored
  exact ite (fun _ => h) fun _ => ite (fun _ => h) fun _ => ite (fun _ => h) fun _ => ite (fun _ => h) fun _ =>
    ite (fun _ => h) fun _ => ite (fun _ => h) fun _ => ite (fun _ => h) fun _ => h

theorem writeEnables (p : Port) (w : Word) : KeepsTime fixed b (s.writeEnables p w) := h
theorem readResult (p : Port) : KeepsTime fixed b (readResult p s) := h
theorem readTimeLow (p : Port) : KeepsTime fixed b (readTimeLow p s) := h

theorem finishResetPort (p : Port) : KeepsTime fixed b (finishResetPort p s) := ite (fun _ => h.post p _) fun _ => h

theorem completeExpels : KeepsTime fixed b s.completeExpels := by
  refine foldl h (fun t q ht => ?_) _
  split <;> exact ht

/-- A restart leaves no timer armed (R25, R136, R145). -/
theorem beginRestart : KeepsTime fixed b (beginRestart s) := by
  have gone : KeepsTime fixed b (s.retiringSlots.foldl State.viewsGone s) := h.foldl (fun _ k hu => hu.viewsGone k) _
  unfold Machine.beginRestart
  refine ite (fun _ => ?_) fun _ => h
  refine completeExpels (completeAll (completeAll (completeAll ?_ _) _) _)
  obtain ⟨clock, -⟩ := gone
  refine ⟨clock, fun _ => ⟨fun p => ?_, fun p => ?_, fun k => ?_⟩⟩
  · exact fun g hg => by simp [State.hold] at hg
  · exact Health.onTime_of_disarmed (by simp [State.healthOf, Health.restarted, Health.reset])
  · show Slot.OnTime _ (((s.retiringSlots.foldl State.viewsGone s).mapSlots Slot.restarted).slot k)
    rw [State.slot_mapSlots]
    exact Slot.onTime_restarted

theorem release (hf : ¬fixed) (p : Port) : KeepsTime fixed b (s.release p) := by
  unfold State.release
  split
  · exact (h.setPhase p .taken).takeCommand (fun x => absurd x hf) p _
  · exact h

/-- A waiting SET_TIME may be released (R147). -/
theorem endRestart (hf : ¬fixed) : KeepsTime fixed b (endRestart s) := by
  have running := completeAll (s := { s with restartMark := false, exchange := .running }) h .restart
  exact ite (fun _ => (running.shuffle _).foldl (fun _ p hu => (hu.release hf p).settle) _) fun _ => h

/-! A step. -/

theorem event {f : State → State} {t : State} (e : event f s = .next t) (hf : KeepsTime fixed b (f s)) :
    KeepsTime fixed b t := by
  cases e
  exact ite (fun _ => h) fun _ => hf.settle

theorem cycle {p : Port} {f : State → State} {t : State} (hf : ∀ u : State, KeepsTime fixed b u → KeepsTime fixed b (f u))
    (e : cycle p f s = .next t) : KeepsTime fixed b t :=
  h.event e (ite (fun _ => h) fun _ => hf s h)

theorem execPortReset {p : Port} {t : State} (e : execPortReset p s = .next t) : KeepsTime fixed b t := by
  unfold Machine.execPortReset at e
  split at e
  · cases e
    exact h
  · have low : KeepsTime fixed b { s with lineLow := s.lineLow.insert p } := h
    exact low.event e (low.resetPort p none)

end Blocks

/-- Device reset leaves no timer armed (R117, R181). -/
theorem deviceReset {fixed : Prop} (hf : ¬fixed) (s : State) : KeepsTime fixed s s.deviceReset := by
  refine ⟨fun x => absurd x hf, fun _ => ⟨fun p g hg => ?_, fun p => ?_, fun k => ?_⟩⟩
  · cases (State.reset_hold p).symm.trans hg
  · exact Health.onTime_of_disarmed (congrArg Health.quiet (State.reset_healthOf p))
  · exact Slot.onTime_of_disarmed (congrArg Slot.deadline (State.reset_slot k)) (congrArg Slot.freshness (State.reset_slot k))

end State.KeepsTime

/-- The events that may change the time base or the prescaler: a cycle of CLK while the time base runs, SET_TIME, the end of a
restart, which may release one, and a device reset. -/
def State.MovesTime (s : State) (c : Instr) : Prop :=
  (c = .timeBaseAdvance ∧ (s.exchange = .running ∨ s.exchange = .freezing)) ∨ (∃ p n, c = .setTime p n) ∨
    c = .restartEnd ∨ c = .deviceReset

/-- Every event keeps R108, and no other event of its own row moves the time base. -/
theorem exec_keepsTime {fixed : Prop} {s t : State} {c : Instr} (hf : fixed → c.wellFormed = true ∧ ¬s.MovesTime c)
    (e : exec c s = .next t) : State.KeepsTime fixed s t := by
  have h := State.KeepsTime.refl (fixed := fixed) s
  have own (x : fixed) : c.wellFormed = true := (hf x).1
  have still (hm : s.MovesTime c) : ¬fixed := fun x => (hf x).2 hm
  cases c with
  | undefinedCommand p code n =>
    have undefined (x : fixed) : Command.ofCode (commandCode (code ++ n)) = none := by
      rw [Notes.commandCode_append]
      exact Option.isNone_iff_eq_none.mp (own x)
    exact h.cycle (fun _ hu => hu.writeCommandWord p undefined) e
  | registerWrite p off w =>
    have notCommand (h0 : off = 0#6) : ¬fixed := fun x => by
      subst h0
      cases own x
    exact h.cycle (fun _ hu => State.KeepsTime.ite (fun h0 => hu.writeCommandWord p fun x => absurd x (notCommand h0)) fun _ =>
      hu.writeStored p off w) e
  | attentionEnableWrite p w => exact h.cycle (fun _ hu => hu.writeEnables p w) e
  | resultRead p => exact h.cycle (fun _ hu => hu.readResult p) e
  | timeLowRead p => exact h.cycle (fun _ hu => hu.readTimeLow p) e
  | noteTake p => exact h.cycle (fun _ hu => hu.takeNote p) e
  | setTime p n => exact h.cycle (fun _ hu => hu.writeCommand (fun x => absurd x (still (.inr (.inl ⟨p, n, rfl⟩)))) p n) e
  | deviceReset =>
    cases e
    exact State.KeepsTime.deviceReset (still (.inr (.inr (.inr rfl)))) s
  | deviceResetRelease =>
    cases e
    exact h
  | portReset p => exact h.execPortReset e
  | resetPortDone p => exact h.event e (h.finishResetPort p)
  | takeNextValue => exact h.event e h.takeNext
  | landingService => exact h.event e h.serveLanding
  | landingNotification => exact h.event e h.notifyLanding
  | landingTimePart => exact h.event e h.timeLanding
  | landingEnd => exact h.event e h.endLanding
  | viewGrant p => exact h.event (f := fun u => u.grantWaiting p) e (h.grantWaiting p)
  | holdExpiry p => exact h.event e (h.expireHold p)
  | deadlineExpiry k => exact h.event e (h.expireDeadline k)
  | freshnessExpiry k => exact h.event e (h.expireFreshness k)
  | quietIntervalEnd p => exact h.event e (h.endQuiet p)
  | detachment p upTo => exact h.event e (h.runDetachment p upTo)
  | restartBegin => exact h.event e h.beginRestart
  | restartEnd => exact h.event e (h.endRestart (still (.inr (.inr (.inl rfl)))))
  | timeBaseAdvance =>
    refine h.event e (h.tick fun x => ?_)
    rw [← Bool.not_eq_true, Publication.timeRuns_iff]
    exact fun runs => still (.inl ⟨rfl, runs⟩) x
  | _ p n => exact h.cycle (fun _ hu => hu.writeCommand (fun _ => by decide) p n) e

theorem step_keeps_timerLaw {s t : State} (e : step s = .next t) (h : s.TimerLaw) : t.TimerLaw := by
  unfold step at e
  split at e
  · cases e
    exact h
  · obtain ⟨-, law⟩ := exec_keepsTime (fixed := False) False.elim e
    exact law h

end Sys2Proof.Machine
end

section
namespace Sys2Proof.TimeBase
open Sys2Proof Sys2Proof.Machine Sys2Proof.Publication Sys2Proof.Requests

/-! ### Cycles of CLK (R106, R107) -/

section Cycles
variable {s : State}

theorem tick_of_cycle (h : s.timeRuns = true) (hp : s.prescaler ≠ 15#4) :
    tick s = { s with prescaler := s.prescaler + 1#4 } := by
  rw [tick, if_pos h, if_neg hp]

theorem tick_of_wrap (h : s.timeRuns = true) (hp : s.prescaler = 15#4) :
    tick s = if s.timerDue then s else { s with prescaler := 0#4, time := s.time + 1#32 } := by
  rw [tick, if_pos h, if_pos hp]

end Cycles

/-! ### Nothing of the Time Unit's happens while the time base is stopped (R107) -/

section Stopped
variable {s : State} (h : s.timeRuns = false)
include h

theorem tick_of_stopped : tick s = s := by simp [tick, h]

theorem expireHold_of_stopped (p : Port) : expireHold p s = s := by
  unfold expireHold
  split
  · rfl
  · simp [h]

theorem endQuiet_of_stopped (p : Port) : endQuiet p s = s := by
  unfold endQuiet
  dsimp only
  split
  · rfl
  · simp [h]

theorem expireDeadline_of_stopped (k : SlotIx) : expireDeadline k s = s := by
  unfold expireDeadline
  split
  · rfl
  · simp [h]

theorem expireFreshness_of_stopped (k : SlotIx) : expireFreshness k s = s :=
  expireFreshness_of_waiting fun _ _ => by rw [h, Bool.false_and]

end Stopped

/-- Settles O60: the cycle by the prescaler and by whether an expiry waits, and what every event does to the timers and the
time base. -/
theorem timeBaseRunsOnlyWhenItMay : Obligations.TimeBaseRunsOnlyWhenItMay := by
  refine ⟨fun s hs => ⟨fun hx => ?_, fun hx => ?_⟩, fun s => ⟨⟨_, rfl, rfl, rfl, rfl⟩, event_inReset⟩, ?_, ?_⟩
  · have runs := timeRuns_iff.mpr hx
    refine ⟨fun hp => event_unreported hs (tick_of_cycle runs hp) rfl, fun hp => ⟨fun hd => ?_, fun hd => ?_⟩⟩
    · exact event_unreported hs ((tick_of_wrap runs hp).trans (if_neg (by simp [hd]))) rfl
    · exact event_unreported hs ((tick_of_wrap runs hp).trans (if_pos hd)) rfl
  · have stopped := timeRuns_of_stopped hx
    exact ⟨event_unreported hs (tick_of_stopped stopped) rfl,
      fun p => ⟨event_unreported hs (expireHold_of_stopped stopped p) rfl,
        event_unreported hs (endQuiet_of_stopped stopped p) rfl⟩,
      fun k => ⟨event_unreported hs (expireDeadline_of_stopped stopped k) rfl,
        event_unreported hs (expireFreshness_of_stopped stopped k) rfl⟩⟩
  · exact fun s t law e => step_keeps_timerLaw e law
  · intro c s t hc e changed
    by_contra still
    obtain ⟨clock, -⟩ := exec_keepsTime (fixed := c.wellFormed = true ∧ ¬s.MovesTime c) id e
    obtain ⟨time, prescaler⟩ := clock ⟨hc, still⟩
    exact changed.elim (fun h => h time) fun h => h prescaler

end Sys2Proof.TimeBase
end

section
namespace Sys2Proof.TimeBase
open Sys2Proof Sys2Proof.Machine

/-! ### Words made of fields (R177, R178, R179) -/

theorem toNat_append_add {m n : Nat} (x : BitVec m) (y : BitVec n) : (x ++ y).toNat = x.toNat * 2 ^ n + y.toNat := by
  rw [BitVec.toNat_append, ← Nat.shiftLeft_add_eq_or_of_lt y.isLt, Nat.shiftLeft_eq]

theorem append_halves (x : Time) : x.extractLsb' 16 16 ++ x.extractLsb' 0 16 = x := by
  have := x.isLt
  apply BitVec.eq_of_toNat_eq
  rw [toNat_append_add, BitVec.extractLsb'_toNat, BitVec.extractLsb'_toNat, Nat.shiftRight_eq_div_pow]
  omega

theorem toNat_slotBits (k : SlotIx) : (slotBits k).toNat = k.val := by
  have := k.isLt
  rw [slotBits, BitVec.toNat_ofNat]
  omega

theorem toNat_beq_eq_one_iff {α : Type} [BEq α] [LawfulBEq α] {a b : α} : (a == b).toNat = 1 ↔ a = b := by
  rw [Bool.toNat_eq_one, beq_iff_eq]

/-! ### RESULT, PORT STATUS and HEALTH SCORE (R175, R177) -/

theorem toNat_resultWord (u : CommandUnit) : u.resultWord.toNat =
    u.busy.isSome.toNat * 2 ^ 15 + u.done.toNat * 2 ^ 14 + u.overrun.toNat * 2 ^ 13 + u.result.code.toNat := by
  rw [CommandUnit.resultWord, toNat_append_add]
  simp only [toNat_append_add, BitVec.toNat_ofBool, BitVec.toNat_ofNat]
  omega

theorem toNat_statusWord (s : State) (p : Port) : (s.statusWord p).toNat =
    ((s.noteUnit p).queue.length % 32) * 2 ^ 10 + (s.port p).unit.overrun.toNat * 2 ^ 9 + s.exchange.code.toNat * 2 ^ 6 +
      (s.token == some p).toNat * 2 ^ 5 + (s.healthOf p).cause.code.toNat * 2 ^ 3 + (s.healthOf p).warn.toNat * 2 ^ 2 +
      (s.healthOf p).state.code.toNat := by
  rw [State.statusWord, toNat_append_add]
  simp only [toNat_append_add, BitVec.toNat_ofBool, BitVec.toNat_ofNat]
  omega

theorem toNat_scoreWord (s : State) (p : Port) : (s.scoreWord p).toNat =
    (if (s.healthOf p).state = .rejoining then (s.healthOf p).rejoinCount % 16 else 0) * 2 ^ 8 +
      (s.healthOf p).score % 256 := by
  rw [State.scoreWord, toNat_append_add, toNat_append_add]
  split <;> simp only [BitVec.toNat_ofNat] <;> omega

theorem bits_resultWord (u : CommandUnit) :
    bits u.resultWord 15 1 = u.busy.isSome.toNat ∧ bits u.resultWord 14 1 = u.done.toNat ∧
      bits u.resultWord 13 1 = u.overrun.toNat ∧ bits u.resultWord 8 5 = 0 ∧
      bits u.resultWord 0 8 = u.result.code.toNat := by
  have := u.busy.isSome.toNat_lt
  have := u.done.toNat_lt
  have := u.overrun.toNat_lt
  have := u.result.code.isLt
  simp only [bits, toNat_resultWord]
  omega

theorem bits_statusWord (s : State) (p : Port) :
    bits (s.statusWord p) 0 2 = (s.healthOf p).state.code.toNat ∧ bits (s.statusWord p) 2 1 = (s.healthOf p).warn.toNat ∧
      bits (s.statusWord p) 3 2 = (s.healthOf p).cause.code.toNat ∧ bits (s.statusWord p) 5 1 = (s.token == some p).toNat ∧
      bits (s.statusWord p) 6 3 = s.exchange.code.toNat ∧ bits (s.statusWord p) 9 1 = (s.port p).unit.overrun.toNat ∧
      bits (s.statusWord p) 10 5 = (s.noteUnit p).queue.length % 32 ∧ bits (s.statusWord p) 15 1 = 0 := by
  have := (s.healthOf p).state.code.isLt
  have := (s.healthOf p).warn.toNat_lt
  have := (s.healthOf p).cause.code.isLt
  have := (s.token == some p).toNat_lt
  have := s.exchange.code.isLt
  have := (s.port p).unit.overrun.toNat_lt
  simp only [bits, toNat_statusWord]
  omega

theorem bits_scoreWord (s : State) (p : Port) :
    bits (s.scoreWord p) 0 8 = (s.healthOf p).score % 256 ∧
      bits (s.scoreWord p) 8 4 = (if (s.healthOf p).state = .rejoining then (s.healthOf p).rejoinCount % 16 else 0) ∧
      bits (s.scoreWord p) 12 4 = 0 := by
  simp only [bits, toNat_scoreWord]
  split <;> omega

theorem statusWords (s : State) (p : Port) : s.StatusWords p := by
  unfold State.StatusWords
  intro u h result status score
  refine ⟨?_, ?_, ?_⟩
  · obtain ⟨busy, done, overrun, zero, code⟩ := bits_resultWord u
    refine ⟨busy, done, overrun, zero, ?_⟩
    rw [show bits result 0 8 = _ from code]
    cases u.result <;> rfl
  · obtain ⟨state, warn, cause, token, exchange, overrun, count, zero⟩ := bits_statusWord s p
    refine ⟨?_, warn, ?_, ?_, ?_, overrun, fun hc => ?_, zero⟩
    · rw [show bits status 0 2 = _ from state]
      cases h.state <;> rfl
    · rw [show bits status 3 2 = _ from cause]
      cases h.cause <;> rfl
    · rw [show bits status 5 1 = _ from token]
      exact toNat_beq_eq_one_iff
    · rw [show bits status 6 3 = _ from exchange]
      cases s.exchange <;> rfl
    · rw [show bits status 10 5 = _ from count]
      omega
  · obtain ⟨points, count, zero⟩ := bits_scoreWord s p
    refine ⟨fun hs => ?_, fun hr hc => ?_, fun hr => ?_, zero⟩
    · rw [show bits score 0 8 = _ from points]
      exact Nat.mod_eq_of_lt (Nat.lt_succ_of_le hs)
    · rw [show bits score 8 4 = _ from count, if_pos hr]
      exact Nat.mod_eq_of_lt hc
    · rw [show bits score 8 4 = _ from count, if_neg hr]

/-! ### The view window (R63, R64, R178) -/

section View
variable {s : State} {p : Port} {h : Hold}

theorem toNat_viewHeader (hh : s.hold p = some h) : (s.viewHeader p).toNat =
    (s.slot h.slot).value.echo.toNat * 2 ^ 13 + (s.suspect h.slot).toNat * 2 ^ 12 + (s.slot h.slot).orphaned.toNat * 2 ^ 11 +
      (s.slot h.slot).stale.toNat * 2 ^ 10 + (s.slot h.slot).value.length.toNat * 2 ^ 6 +
      ((s.slot h.slot).config.kind == .event).toNat * 2 ^ 5 + (s.slot h.slot).state.code.toNat * 2 ^ 3 +
      h.viewState.code.toNat := by
  simp only [State.viewHeader, hh]
  rw [toNat_append_add]
  simp only [toNat_append_add, BitVec.toNat_ofBool, BitVec.toNat_ofNat]
  omega

theorem bits_viewHeader (hh : s.hold p = some h) :
    bits (s.viewHeader p) 0 3 = h.viewState.code.toNat ∧ bits (s.viewHeader p) 3 2 = (s.slot h.slot).state.code.toNat ∧
      bits (s.viewHeader p) 5 1 = ((s.slot h.slot).config.kind == .event).toNat ∧
      bits (s.viewHeader p) 6 4 = (s.slot h.slot).value.length.toNat ∧
      bits (s.viewHeader p) 10 1 = (s.slot h.slot).stale.toNat ∧
      bits (s.viewHeader p) 11 1 = (s.slot h.slot).orphaned.toNat ∧
      bits (s.viewHeader p) 12 1 = (s.suspect h.slot).toNat ∧
      bits (s.viewHeader p) 13 1 = (s.slot h.slot).value.echo.toNat ∧ bits (s.viewHeader p) 14 2 = 0 := by
  have := h.viewState.code.isLt
  have := (s.slot h.slot).state.code.isLt
  have := ((s.slot h.slot).config.kind == .event).toNat_lt
  have := (s.slot h.slot).value.length.isLt
  have := (s.slot h.slot).stale.toNat_lt
  have := (s.slot h.slot).orphaned.toNat_lt
  have := (s.suspect h.slot).toNat_lt
  have := (s.slot h.slot).value.echo.toNat_lt
  simp only [bits, toNat_viewHeader hh]
  omega

theorem viewed_of_hold (hh : s.hold p = some h) (f : SlotValue → Word) : s.viewed p f = f (s.slot h.slot).value := by
  simp only [State.viewed, hh]

/-- Every word of the view window is 0 while the port holds nothing. -/
theorem windowRead_view_of_no_hold (hh : s.hold p = none) {off : BitVec 6} (h1 : 0x12 ≤ off.toNat) (h2 : off.toNat ≤ 0x1F) :
    s.windowRead p off = 0#16 := by
  unfold State.windowRead
  generalize off.toNat = n at h1 h2
  interval_cases n <;> simp [State.viewHeader, State.viewed, hh]

theorem windowRead_data (s : State) (p : Port) (i : Fin 8) :
    s.windowRead p (BitVec.ofNat 6 (0x17 + i.val)) = s.viewed p fun v => v.data.get i := by
  obtain ⟨i, hi⟩ := i
  interval_cases i <;> rfl

theorem viewWords (s : State) (p : Port) : s.ViewWords p := by
  unfold State.ViewWords
  refine ⟨fun hh off => windowRead_view_of_no_hold hh, fun h hh => ?_⟩
  intro r header
  have read {o : BitVec 6} {f : SlotValue → Word} (e : s.windowRead p o = s.viewed p f) : s.windowRead p o = f r.value :=
    e.trans (viewed_of_hold hh f)
  obtain ⟨view, state, kind, length, stale, orphaned, suspect, echo, zero⟩ := bits_viewHeader hh
  refine ⟨⟨?_, ?_, ?_, length, stale, orphaned, ?_, echo, zero⟩, ?_, ?_, ?_, fun i => ?_, ?_⟩
  · rw [show bits header 0 3 = _ from view]
    cases h.viewState <;> rfl
  · rw [show bits header 3 2 = _ from state]
    cases r.state <;> rfl
  · rw [show bits header 5 1 = _ from kind]
    exact toNat_beq_eq_one_iff
  · rw [show bits header 12 1 = _ from suspect]
    exact toNat_beq_eq_one_iff
  · have identifier : s.windowRead p 0x13#6 = (s.hold p).elim 0#16 fun g => g.identifier.setWidth 16 := rfl
    rw [identifier, hh, Option.elim_some, BitVec.toNat_setWidth_of_le (by decide)]
  · exact read rfl
  · have low := read (o := 0x15#6) (f := fun v => v.stamp.extractLsb' 0 16) rfl
    have high := read (o := 0x16#6) (f := fun v => v.stamp.extractLsb' 16 16) rfl
    rw [low, high]
    exact append_halves _
  · exact read (windowRead_data s p i)
  · have slot : s.windowRead p 0x1F#6 = (s.hold p).elim 0#16 fun g => BitVec.ofNat 16 g.slot.val := rfl
    have := h.slot.isLt
    rw [slot, hh, Option.elim_some, BitVec.toNat_ofNat]
    omega

end View

/-! ### The note words (R79, R81, R178) -/

section NoteWords
variable {s : State} {p : Port}

theorem bits_noteTakeWord (n : Note) :
    bits (noteTakeWord (some n)) 12 4 = n.reason.code.toNat ∧ bits (noteTakeWord (some n)) 7 5 = 0 ∧
      bits (noteTakeWord (some n)) 0 7 = n.slot.val := by
  have word : (noteTakeWord (some n)).toNat = n.reason.code.toNat * 2 ^ 12 + n.slot.val := by
    rw [noteTakeWord, toNat_append_add, toNat_append_add, toNat_slotBits, BitVec.toNat_ofNat]
    omega
  have := n.reason.code.isLt
  have := n.slot.isLt
  simp only [bits, word]
  omega

theorem bits_noteIdentWord (n : Note) :
    bits (noteIdentWord (some n)) 0 12 = n.identifier.toNat ∧ bits (noteIdentWord (some n)) 12 1 = n.reply.toNat ∧
      bits (noteIdentWord (some n)) 13 1 = n.coalesced.toNat ∧ bits (noteIdentWord (some n)) 14 2 = 0 := by
  have word : (noteIdentWord (some n)).toNat = n.coalesced.toNat * 2 ^ 13 + n.reply.toNat * 2 ^ 12 + n.identifier.toNat := by
    rw [noteIdentWord, toNat_append_add]
    simp only [toNat_append_add, BitVec.toNat_ofBool, BitVec.toNat_ofNat]
    omega
  have := n.coalesced.toNat_lt
  have := n.reply.toNat_lt
  have := n.identifier.isLt
  simp only [bits, word]
  omega

theorem noteWords (s : State) (p : Port) : s.NoteWords p := by
  unfold State.NoteWords
  intro q take
  have taken : take = noteTakeWord q.head? := rfl
  have ident : s.windowRead p 0x21#6 = noteIdentWord (s.port p).latch := rfl
  have sequence : s.windowRead p 0x22#6 = (s.port p).latch.elim 0#16 fun m => m.sequence := rfl
  have stamp : s.windowRead p 0x23#6 = (s.port p).latch.elim 0#16 fun m => m.stamp := rfl
  refine ⟨fun hq => ?_, fun n rest hq => ?_, fun hl => ?_, fun n hl => ?_, fun hq => ?_⟩
  · rw [taken, hq]
    rfl
  · obtain ⟨reason, zero, slot⟩ := bits_noteTakeWord n
    have word : take = noteTakeWord (some n) := by rw [taken, hq, List.head?_cons]
    rw [word]
    refine ⟨?_, zero, slot⟩
    rw [reason]
    cases n.reason <;> rfl
  · rw [ident, sequence, stamp, hl]
    exact ⟨rfl, rfl, rfl⟩
  · obtain ⟨identifier, reply, coalesced, zero⟩ := bits_noteIdentWord n
    intro w
    have word : w = noteIdentWord (some n) := by rw [← hl, ← ident]
    rw [word, sequence, stamp, hl]
    exact ⟨identifier, reply, coalesced, zero, rfl, rfl⟩
  · have count : s.windowRead p 0x24#6 = BitVec.ofNat 16 q.length := rfl
    rw [count, BitVec.toNat_ofNat]
    omega

end NoteWords

end Sys2Proof.TimeBase
end

section
namespace Sys2Proof.TimeBase
open Sys2Proof Sys2Proof.Machine

/-! ### The maintenance window (R156, R157, R166, R179) -/

section MaintenanceWindow
variable {s : State} {p : Port}

theorem windowRead_maintenance {m : Maintenance} (hm : (s.port p).maintenance = m) {off : BitVec 6}
    (h : 0x38 ≤ off.toNat) : s.windowRead p off = m.word (off.toNat - 0x38) := by
  have := off.isLt
  subst hm
  unfold State.windowRead
  generalize off.toNat = n at *
  interval_cases n <;> rfl

/-- The source that each source code of R179 stands for. -/
theorem source_of_code (x : Source) :
    [Source.port .a, .port .b, .port .c, .port .d, .exchange][x.code.toNat]? = some x := by
  cases x with
  | port q => cases q <;> rfl
  | exchange => rfl

theorem bits_inspectionWord0 {r : Inspection} (hq : r.queueCount ≤ 8) :
    bits (r.word 0) 0 2 = 1 ∧ bits (r.word 0) 2 3 = r.position.toNat ∧ bits (r.word 0) 5 4 = r.queueCount ∧
      bits (r.word 0) 9 1 = r.snapshot.toNat ∧ bits (r.word 0) 10 1 = r.passed.toNat ∧ bits (r.word 0) 11 1 = 0 ∧
      bits (r.word 0) 12 3 = r.source.code.toNat ∧ bits (r.word 0) 15 1 = 0 := by
  have word : (r.word 0).toNat = r.source.code.toNat * 2 ^ 12 + r.passed.toNat * 2 ^ 10 + r.snapshot.toNat * 2 ^ 9 +
      r.queueCount * 2 ^ 5 + r.position.toNat * 2 ^ 2 + 1 := by
    rw [Inspection.word, toNat_append_add]
    simp only [toNat_append_add, BitVec.toNat_ofBool, BitVec.toNat_ofNat]
    omega
  have := r.position.isLt
  have := r.snapshot.toNat_lt
  have := r.passed.toNat_lt
  have := r.source.code.isLt
  simp only [bits, word]
  omega

theorem bits_inspectionWord1 (r : Inspection) :
    bits (r.word 1) 0 7 = r.slot.val ∧ bits (r.word 1) 7 1 = 0 ∧ bits (r.word 1) 8 4 = r.length.toNat ∧
      bits (r.word 1) 12 4 = 0 := by
  have word : (r.word 1).toNat = r.length.toNat * 2 ^ 8 + r.slot.val := by
    rw [Inspection.word, toNat_append_add, toNat_slotBits]
    simp only [toNat_append_add, BitVec.toNat_ofNat]
    omega
  have := r.slot.isLt
  have := r.length.isLt
  simp only [bits, word]
  omega

/-- The first word of a CAPTURE record, whose high bits are 0 for the empty entry. -/
theorem toNat_captureWord0 {r : CaptureReading} (hp : r.present ≤ 8) : (r.word 0).toNat =
    (r.entry.elim 0 fun e => e.action.code.toNat * 2 ^ 4 + e.detail.toNat * 2 ^ 3 + e.kind.code.toNat) * 2 ^ 10 +
      r.armed.toNat * 2 ^ 9 + r.present * 2 ^ 5 + r.index.toNat * 2 ^ 2 + 2 := by
  cases hr : r.entry
  all_goals
    simp only [CaptureReading.word, hr, Option.elim_none, Option.elim_some]
    rw [toNat_append_add]
    simp only [toNat_append_add, BitVec.toNat_ofBool, BitVec.toNat_ofNat]
    omega

theorem bits_captureWord0_reading {r : CaptureReading} (hp : r.present ≤ 8) :
    bits (r.word 0) 0 2 = 2 ∧ bits (r.word 0) 2 3 = r.index.toNat ∧ bits (r.word 0) 5 4 = r.present ∧
      bits (r.word 0) 9 1 = r.armed.toNat := by
  have := r.index.isLt
  have := r.armed.toNat_lt
  simp only [bits, toNat_captureWord0 hp]
  omega

theorem bits_captureWord0_empty {r : CaptureReading} (hp : r.present ≤ 8) (hr : r.entry = none) :
    bits (r.word 0) 10 6 = 0 := by
  have := r.index.isLt
  have := r.armed.toNat_lt
  simp only [bits, toNat_captureWord0 hp, hr, Option.elim_none]
  omega

theorem bits_captureWord0_entry {r : CaptureReading} {e : Capture} (hp : r.present ≤ 8) (hr : r.entry = some e) :
    bits (r.word 0) 10 3 = e.kind.code.toNat ∧ bits (r.word 0) 13 1 = e.detail.toNat ∧
      bits (r.word 0) 14 2 = e.action.code.toNat := by
  have := r.index.isLt
  have := r.armed.toNat_lt
  have := e.kind.code.isLt
  have := e.detail.toNat_lt
  have := e.action.code.isLt
  simp only [bits, toNat_captureWord0 hp, hr, Option.elim_some]
  omega

theorem bits_captureWord1 {r : CaptureReading} {e : Capture} (hr : r.entry = some e) :
    bits (r.word 1) 0 7 = e.slot.val ∧ bits (r.word 1) 7 1 = 0 ∧ bits (r.word 1) 8 3 = e.source.code.toNat ∧
      bits (r.word 1) 11 5 = 0 := by
  have word : (r.word 1).toNat = e.source.code.toNat * 2 ^ 8 + e.slot.val := by
    simp only [CaptureReading.word, hr]
    rw [toNat_append_add, toNat_slotBits]
    simp only [toNat_append_add, BitVec.toNat_ofNat]
    omega
  have := e.slot.isLt
  have := e.source.code.isLt
  simp only [bits, word]
  omega

/-- The words of the empty entry (R166). -/
theorem captureWord_empty {r : CaptureReading} (hr : r.entry = none) {i : Nat} (h1 : 1 ≤ i) (h2 : i ≤ 6) :
    r.word i = 0#16 := by
  interval_cases i <;> simp only [CaptureReading.word, hr]

theorem captureWord_count (r : CaptureReading) : r.word 7 = r.matchCount := by
  unfold CaptureReading.word
  cases r.entry <;> rfl

/-- The words of an entry that show one field each (R179). -/
theorem captureWord_entry {r : CaptureReading} {e : Capture} (hr : r.entry = some e) :
    (r.word 2).toNat = e.identifier.toNat ∧ r.word 3 = e.sequence ∧ r.word 4 = e.stamp.extractLsb' 0 16 ∧
      r.word 5 = e.stamp.extractLsb' 16 16 ∧ r.word 6 = e.matchNumber := by
  simp only [CaptureReading.word, hr, and_self, and_true]
  rw [toNat_append_add]
  simp

theorem maintenanceWords (s : State) (p : Port) : s.MaintenanceWords p := by
  unfold State.MaintenanceWords
  intro sources w0 w1
  refine ⟨fun hm _ ho => windowRead_maintenance hm ho, fun r hm hq hr => ?_, fun r hm hp => ?_⟩
  · have read {off : BitVec 6} (ho : 0x38 ≤ off.toNat) : s.windowRead p off = r.word (off.toNat - 0x38) :=
      windowRead_maintenance hm ho
    have word0 : w0 = r.word 0 := read (by decide)
    have word1 : w1 = r.word 1 := read (by decide)
    have ripe : s.windowRead p 0x3D#6 = BitVec.ofNat 16 r.ripeCount := read (by decide)
    obtain ⟨kind, position, count, snapshot, passed, zero11, source, zero15⟩ := bits_inspectionWord0 hq
    obtain ⟨slot, zero7, length, zero12⟩ := bits_inspectionWord1 r
    rw [word0, word1, source, ripe]
    refine ⟨kind, position, count, snapshot, passed, zero11, source_of_code _, zero15, slot, zero7, length, zero12,
      read (by decide), ?_, ?_, read (by decide), read (by decide)⟩
    · rw [read (off := 0x3C#6) (by decide), read (off := 0x3B#6) (by decide)]
      exact append_halves r.stamp
    · rw [BitVec.toNat_ofNat]
      omega
  · have read {off : BitVec 6} (ho : 0x38 ≤ off.toNat) : s.windowRead p off = r.word (off.toNat - 0x38) :=
      windowRead_maintenance hm ho
    have word0 : w0 = r.word 0 := read (by decide)
    have word1 : w1 = r.word 1 := read (by decide)
    rw [word0, word1]
    obtain ⟨kind, index, present, armed⟩ := bits_captureWord0_reading hp
    refine ⟨⟨kind, index, present, armed, (read (by decide)).trans (captureWord_count r)⟩,
      fun he => ⟨bits_captureWord0_empty hp he, fun off h1 h2 => ?_⟩, fun e he => ?_⟩
    · exact (read (by omega)).trans (captureWord_empty he (by omega) (by omega))
    · obtain ⟨act, detail, action⟩ := bits_captureWord0_entry hp he
      obtain ⟨slot, zero7, source, zero11⟩ := bits_captureWord1 he
      obtain ⟨identifier, sequence, low, high, number⟩ := captureWord_entry he
      have stampLow : s.windowRead p 0x3C#6 = e.stamp.extractLsb' 0 16 := (read (by decide)).trans low
      have stampHigh : s.windowRead p 0x3D#6 = e.stamp.extractLsb' 16 16 := (read (by decide)).trans high
      rw [act, action, source, stampLow, stampHigh]
      refine ⟨?_, detail, ?_, slot, zero7, source_of_code _, zero11, ?_, (read (by decide)).trans sequence,
        append_halves e.stamp, (read (by decide)).trans number⟩
      · cases e.kind <;> rfl
      · cases e.action <;> rfl
      · exact (congrArg BitVec.toNat (read (by decide))).trans identifier

end MaintenanceWindow

/-! ### The reads with a side effect (R109, R168, R172) -/

section Reads
variable {s : State} {p : Port}

/-- A bus cycle that makes no report. -/
theorem cycle_unreported {f : State → State} (hl : s.listens p) (hr : (f s).reports = s.reports) :
    cycle p f s = .next (f s) := by
  obtain ⟨⟨hreset, hrep⟩, hline⟩ := hl
  rw [cycle_next hreset hline, State.settle_nil _ (hr.trans hrep)]

theorem dataDriven_of_listens (hl : s.listens p) (off : BitVec 6) : s.dataDriven p off = some (s.windowRead p off) := by
  obtain ⟨⟨hreset, -⟩, hline⟩ := hl
  simp [State.dataDriven, State.takesCycles, hreset, hline]

theorem dataDriven_of_reset (h : s.inReset = true ∨ s.lineLow.has p = true) (off : BitVec 6) : s.dataDriven p off = none := by
  rcases h with h | h <;> simp [State.dataDriven, State.takesCycles, h]

/-- TIME HIGH reads the latch that a read of TIME LOW leaves (R109). -/
theorem timeHigh_readTimeLow (s : State) (p : Port) :
    (readTimeLow p s).windowRead p 0x08#6 ++ s.windowRead p 0x07#6 = s.time := by
  have latched : (readTimeLow p s).windowRead p 0x08#6 = s.time.extractLsb' 16 16 := by
    show ((readTimeLow p s).port p).timeLatch = _
    rw [readTimeLow, State.port_modPort_self]
  rw [latched]
  exact append_halves s.time

end Reads

/-- Settles O51: the two reads, and the words of the window part by part. -/
theorem readsOfResultAndTime : Obligations.ReadsOfResultAndTime := by
  refine ⟨fun s p hl => ?_, fun s p => ?_⟩
  · exact ⟨cycle_unreported (f := readResult p) hl rfl, cycle_unreported (f := readTimeLow p) hl rfl,
      timeHigh_readTimeLow s p⟩
  · exact ⟨statusWords s p, viewWords s p, noteWords s p, maintenanceWords s p, dataDriven_of_listens, dataDriven_of_reset⟩

end Sys2Proof.TimeBase
end

section
namespace Sys2Proof.Machine
open Sys2Proof Sys2Proof.Publication

/-! ### What the steps of a detachment clear (R125, R126, R129) -/

/-- Port `p` waits in no requester set. -/
def State.Unasked (s : State) (p : Port) : Prop := ∀ k, (s.slot k).requesters.has p = false

/-- Port `p` is CLOSED, with no note and no place in an unread or missed set. -/
def State.Silent (s : State) (p : Port) : Prop :=
  (s.noteUnit p).queue = [] ∧ (s.noteUnit p).delivery = .closed ∧
    ∀ k, (s.slot k).unread.has p = false ∧ (s.slot k).missed.has p = false

/-- What step `st` of a detachment clears for good is clear of `p`. -/
def State.Cleared (s : State) (p : Port) : DetachStep → Prop
  | .token => s.token ≠ some p
  | .hold => s.hold p = none
  | .publications => s.entriesOf p = 0
  | .requests => s.Unasked p ∧ s.lostOwners.has p = true
  | .notes => s.Silent p
  | .orphan => True

/-- What the law of detached ports asks of a BUSY command of `p`. -/
def State.MayBeBusy (s : State) (p : Port) (c : Busy) : Prop :=
  (c.command = .resetPort → c.phase = .taken) ∧
    ((s.healthOf p).mark = true ∨ (s.healthOf p).state.outside = true →
      c.command = .resetPort ∨ (c.command = .rejoin ∧ c.phase = .afterRestart ∧ (s.healthOf p).mark = false))

theorem State.detachedLaw_iff {s : State} : s.DetachedLaw ↔
    s.MarkLaw ∧ (∀ p st, s.clearOf p st → s.Cleared p st) ∧
      ∀ p c, (s.port p).unit.busy = some c → s.MayBeBusy p c := by
  constructor
  · rintro ⟨marks, ports⟩
    refine ⟨marks, fun p st => ?_, fun p c hc => ?_⟩
    · obtain ⟨token, hold, publications, requests, notes, -⟩ := ports p
      cases st with
      | token => exact token
      | hold => exact hold
      | publications => exact publications
      | requests => exact requests
      | notes => exact notes
      | orphan => exact fun _ => trivial
    · obtain ⟨-, -, -, -, -, command⟩ := ports p
      exact command c hc
  · rintro ⟨marks, cleared, command⟩
    exact ⟨marks, fun p => ⟨cleared p .token, cleared p .hold, cleared p .publications, cleared p .requests,
      cleared p .notes, command p⟩⟩

theorem State.entriesOf_eq_zero_iff {s : State} {p : Port} : s.entriesOf p = 0 ↔ ∀ o ∈ s.queue, o.source ≠ .port p := by
  simp [State.entriesOf, List.length_eq_zero_iff, List.filter_eq_nil_iff]

/-! ### The relation that every operation but a detachment, a return and a reset of the part keeps -/

/-- The law of the score for one record (R121, R122). -/
def Health.InRange (g : Health) : Prop :=
  g.score ≤ Config.scoreMax ∧ g.warn = warnOf g.score ∧ (g.state.outside = true → g.score = 0)

/-- A health record that stays in or out of the exchange, and whose mark, once set, stays; it is set inside the exchange alone. -/
def Health.Continues (g h : Health) : Prop :=
  h.state.outside = g.state.outside ∧ (g.mark = true → h.mark = true) ∧
    (h.mark = true → g.mark = true ∨ g.state.outside = false)

/-- Every BUSY command of `s` was BUSY in `b`, in the same phase but for a VIEW whose slot has gone, or a port of `x`; a mark that is
newly set leaves a RESET_PORT alone BUSY. -/
def State.CommandsStay (x : Port → Prop) (b s : State) : Prop :=
  ∀ p c, (s.port p).unit.busy = some c → ∃ d, (b.port p).unit.busy = some d ∧ c.command = d.command ∧
    (c.phase = d.phase ∨ ((∃ k, d.phase = .behindLanding k) ∧ c.phase = .slotGone) ∨ x p) ∧
    ((s.healthOf p).mark = true → (b.healthOf p).mark = true ∨ c.command = .resetPort)

/-- The ports whose marks have been set since `b` wait behind those that waited already. -/
def State.MarksWait (b s : State) : Prop :=
  s.detaching = b.detaching ∧ ∃ ps : List Port, s.detachQueue.flatten = b.detachQueue.flatten ++ ps ∧ ps.Nodup ∧
    ∀ p, p ∈ ps ↔ (s.healthOf p).mark = true ∧ (b.healthOf p).mark = false

/-- From `b` to `s` no port outside `x` gains what a step of a detachment clears, and no port but those of `x` moves its BUSY command;
the score law, the health states and the waiting detachments go on. -/
def State.NoGain (x : Port → Prop) (b s : State) : Prop :=
  (∀ p st, ¬x p → b.Cleared p st → s.Cleared p st) ∧ (b.ScoreLaw → s.ScoreLaw) ∧
    (∀ p, (b.healthOf p).Continues (s.healthOf p)) ∧ State.CommandsStay x b s ∧ State.MarksWait b s

theorem Health.Continues.refl (h : Health) : h.Continues h := ⟨rfl, id, .inl⟩

theorem Health.Continues.trans {f g h : Health} (a : f.Continues g) (b : g.Continues h) : f.Continues h := by
  obtain ⟨outside, kept, new⟩ := a
  obtain ⟨outside', kept', new'⟩ := b
  exact ⟨outside'.trans outside, kept' ∘ kept, fun hm => (new' hm).elim new fun ho => .inr (outside ▸ ho)⟩

namespace State.NoGain
variable {x : Port → Prop} {b s t : State}

theorem refl (s : State) : NoGain x s s :=
  ⟨fun _ _ _ => id, id, fun _ => .refl _, fun _ c hc => ⟨c, hc, rfl, .inl rfl, .inl⟩, rfl, [], by simp, by simp, by simp⟩

theorem trans (h : NoGain x b s) (g : NoGain x s t) : NoGain x b t := by
  obtain ⟨cleared, scores, health, commands, running, ps, waiting, nodup, marked⟩ := h
  obtain ⟨cleared', scores', health', commands', running', ps', waiting', nodup', marked'⟩ := g
  refine ⟨fun p st hx hc => cleared' p st hx (cleared p st hx hc), scores' ∘ scores, fun p => (health p).trans (health' p),
    fun p c hc => ?_, running'.trans running, ps ++ ps', ?_, ?_, fun p => ?_⟩
  · obtain ⟨d, hd, same, phase, mark⟩ := commands' p c hc
    obtain ⟨e, he, same', phase', mark'⟩ := commands p d hd
    refine ⟨e, he, same.trans same', ?_, fun hm => (mark hm).elim (fun hs => same ▸ mark' hs) .inr⟩
    rcases phase with e1 | ⟨⟨k, e1⟩, e2⟩ | hx
    · rw [e1]
      exact phase'
    · rcases phase' with e3 | ⟨-, e3⟩ | hx
      · exact .inr (.inl ⟨⟨k, e3 ▸ e1⟩, e2⟩)
      · cases e1.symm.trans e3
      · exact .inr (.inr hx)
    · exact .inr (.inr hx)
  · rw [waiting', waiting, List.append_assoc]
  · refine List.nodup_append.mpr ⟨nodup, nodup', ?_⟩
    rintro p hp q hq rfl
    have set := ((marked p).mp hp).1
    rw [((marked' p).mp hq).2] at set
    cases set
  · have ⟨_, kept, _⟩ := health p
    have ⟨_, kept', _⟩ := health' p
    rw [List.mem_append, marked, marked']
    revert kept kept'
    cases (b.healthOf p).mark <;> cases (s.healthOf p).mark <;> cases (t.healthOf p).mark <;> simp

/-- An operation that leaves the health records, the command units and the waiting detachments. -/
theorem of_cleared (h : NoGain x b s) (cleared : ∀ p st, ¬x p → s.Cleared p st → t.Cleared p st) (hh : t.health = s.health)
    (hp : t.ports = s.ports) (hd : t.detaching = s.detaching) (hq : t.detachQueue = s.detachQueue) : NoGain x b t := by
  obtain ⟨cleared', scores, health, commands, running, waiting⟩ := h
  have same (p : Port) : t.healthOf p = s.healthOf p := by simp only [State.healthOf, hh]
  refine ⟨fun p st hx hc => cleared p st hx (cleared' p st hx hc), fun hb p => by rw [same]; exact scores hb p,
    fun p => by rw [same]; exact health p, fun p c hc => ?_, hd.trans running, ?_⟩
  · rw [State.port, hp] at hc
    rw [same]
    exact commands p c hc
  · simpa only [hq, same] using waiting

theorem ite {c : Prop} [Decidable c] (ht : c → NoGain x b s) (he : ¬c → NoGain x b t) : NoGain x b (if c then s else t) := by
  split
  · next hc => exact ht hc
  · next hc => exact he hc

section Updates
variable (h : NoGain x b s)
include h

theorem foldl {α : Type} {f : State → α → State} (hf : ∀ u a, NoGain x b u → NoGain x b (f u a)) (l : List α) :
    NoGain x b (l.foldl f s) := foldl_keeps hf l s h

/-- One port's unit changes, and no command becomes BUSY. -/
theorem modPort (q : Port) {f : PortUnit → PortUnit}
    (hf : ∀ c, (f (s.port q)).unit.busy = some c → (s.port q).unit.busy = some c) : NoGain x b (s.modPort q f) := by
  obtain ⟨cleared, scores, health, commands, waiting⟩ := h
  refine ⟨cleared, scores, health, fun p c hc => commands p c ?_, waiting⟩
  rw [State.port_modPort] at hc
  split at hc
  · next e => exact e ▸ hf c hc
  · exact hc

/-- The BUSY command of one port changes its phase: it is a port of `x`, or its VIEW's slot has gone. -/
theorem setPhase {q : Port} {ph : Phase} (hq : (∃ k, s.phaseOf q = some (.behindLanding k)) ∧ ph = .slotGone ∨ x q) :
    NoGain x b (s.setPhase q ph) := by
  refine h.trans ⟨fun _ _ _ => id, id, fun _ => .refl _, fun p c hc => ?_, rfl, [], by simp, by simp, by simp⟩
  rw [State.setPhase, State.port_modPort] at hc
  split at hc
  · next e =>
    subst e
    obtain ⟨d, hd, rfl⟩ := Option.map_eq_some_iff.mp hc
    refine ⟨d, hd, rfl, .inr (hq.imp (fun ⟨⟨k, hk⟩, e⟩ => ⟨⟨k, ?_⟩, e⟩) id), .inl⟩
    simpa [State.phaseOf, hd] using hk
  · exact ⟨c, hc, rfl, .inl rfl, .inl⟩

/-- One slot record changes: its requesters are no more ports outside `x`, and its unread and missed sets no more CLOSED ones. -/
theorem modSlot (k : SlotIx) {f : Slot → Slot}
    (hr : ∀ p, ¬x p → (s.slot k).requesters.has p = false → (f (s.slot k)).requesters.has p = false)
    (hn : ∀ p, (s.noteUnit p).delivery = .closed → (s.slot k).unread.has p = false ∧ (s.slot k).missed.has p = false →
      (f (s.slot k)).unread.has p = false ∧ (f (s.slot k)).missed.has p = false) : NoGain x b (s.modSlot k f) := by
  refine h.of_cleared (fun p st hx hc => ?_) rfl rfl rfl rfl
  cases st with
  | requests =>
    obtain ⟨unasked, lost⟩ := hc
    refine ⟨fun j => ?_, lost⟩
    rw [State.slot_modSlot]
    split
    · exact hr p hx (unasked k)
    · exact unasked j
  | notes =>
    obtain ⟨queue, closed, sets⟩ := hc
    refine ⟨queue, closed, fun j => ?_⟩
    rw [State.slot_modSlot]
    split
    · exact hn p closed (sets k)
    · exact sets j
  | _ => exact hc

/-- The sets of ports of one slot record stay. -/
theorem modSlot_sets (k : SlotIx) {f : Slot → Slot}
    (hf : ∀ r, (f r).requesters = r.requesters ∧ (f r).unread = r.unread ∧ (f r).missed = r.missed) : NoGain x b (s.modSlot k f) := by
  obtain ⟨requesters, unread, missed⟩ := hf (s.slot k)
  exact h.modSlot k (fun p _ hp => by rw [requesters]; exact hp) fun p _ hp => by rw [unread, missed]; exact hp

/-- Every slot record changes, and its sets of ports gain no member. -/
theorem mapSlots {f : Slot → Slot} (hf : ∀ (r : Slot) p, (r.requesters.has p = false → (f r).requesters.has p = false) ∧
    (r.unread.has p = false ∧ r.missed.has p = false → (f r).unread.has p = false ∧ (f r).missed.has p = false)) :
    NoGain x b (s.mapSlots f) := by
  refine h.of_cleared (fun p st hx hc => ?_) rfl rfl rfl rfl
  cases st with
  | requests =>
    obtain ⟨unasked, lost⟩ := hc
    exact ⟨fun j => by rw [State.slot_mapSlots]; exact (hf _ p).1 (unasked j), lost⟩
  | notes =>
    obtain ⟨queue, closed, sets⟩ := hc
    exact ⟨queue, closed, fun j => by rw [State.slot_mapSlots]; exact (hf _ p).2 (sets j)⟩
  | _ => exact hc

/-- The notes change, and no CLOSED port with an empty queue gains one. -/
theorem of_notes (e : ∃ N R, t = { s with notes := N, reports := R })
    (hn : ∀ p, (s.noteUnit p).queue = [] → (s.noteUnit p).delivery = .closed →
      (t.noteUnit p).queue = [] ∧ (t.noteUnit p).delivery = .closed) : NoGain x b t := by
  obtain ⟨N, R, rfl⟩ := e
  refine h.of_cleared (fun p st hx hc => ?_) rfl rfl rfl rfl
  cases st with
  | notes =>
    obtain ⟨queue, closed, sets⟩ := hc
    obtain ⟨queue', closed'⟩ := hn p queue closed
    exact ⟨queue', closed', sets⟩
  | _ => exact hc

theorem modNotes (q : Port) {f : NoteUnit → NoteUnit}
    (hf : (s.noteUnit q).queue = [] → (s.noteUnit q).delivery = .closed →
      (f (s.noteUnit q)).queue = [] ∧ (f (s.noteUnit q)).delivery = .closed) : NoGain x b (s.modNotes q f) := by
  refine h.of_notes ⟨_, _, rfl⟩ fun p hq hd => ?_
  rw [State.noteUnit_modNotes]
  split
  · next e => subst e; exact hf hq hd
  · exact ⟨hq, hd⟩

/-- The Publication Queue changes, and no port outside `x` gains a first entry. -/
theorem requeue {q : List Offer} {n : Nat}
    (hq : ∀ p, ¬x p → (∀ o ∈ s.queue, o.source ≠ .port p) → ∀ o ∈ q, o.source ≠ .port p) :
    NoGain x b { s with queue := q, nextOrder := n } := by
  refine h.of_cleared (fun p st hx hc => ?_) rfl rfl rfl rfl
  cases st with
  | publications => exact State.entriesOf_eq_zero_iff.mpr (hq p hx (State.entriesOf_eq_zero_iff.mp hc))
  | _ => exact hc

theorem freeToken : NoGain x b { s with token := none } := by
  refine h.of_cleared (fun p st hx hc => ?_) rfl rfl rfl rfl
  cases st with
  | token => exact nofun
  | _ => exact hc

theorem takeToken {q : Port} (hq : x q) : NoGain x b { s with token := some q } := by
  refine h.of_cleared (fun p st hx hc => ?_) rfl rfl rfl rfl
  cases st with
  | token => exact fun e => hx (Option.some.inj e ▸ hq)
  | _ => exact hc

theorem setHold {q : Port} {o : Option Hold} (hq : o = none ∨ x q) : NoGain x b (s.setHold q o) := by
  refine h.of_cleared (fun p st hx hc => ?_) rfl rfl rfl rfl
  cases st with
  | hold =>
    show (s.setHold q o).hold p = none
    rw [State.hold_setHold]
    split
    · next e => exact hq.resolve_right (e ▸ hx)
    · exact hc
  | _ => exact hc

/-- The health records change, and every one continues with its mark as it is. -/
theorem of_health {H : PerPort Health} (hl : s.ScoreLaw → { s with health := H }.ScoreLaw)
    (hm : ∀ p, (H.get p).mark = (s.healthOf p).mark) (ho : ∀ p, (H.get p).state.outside = (s.healthOf p).state.outside) :
    NoGain x b { s with health := H } := by
  have mark (p : Port) : ({ s with health := H }.healthOf p).mark = (s.healthOf p).mark := hm p
  refine h.trans ⟨fun _ _ _ => id, hl, fun p => ⟨ho p, (mark p).symm ▸ id, fun hp => .inl (mark p ▸ hp)⟩,
    fun p c hc => ⟨c, hc, rfl, .inl rfl, fun hp => .inl (mark p ▸ hp)⟩, rfl, [], by simp, by simp, fun p => ?_⟩
  rw [mark]
  cases (s.healthOf p).mark <;> simp

theorem modHealth (q : Port) {f : Health → Health}
    (hl : (s.healthOf q).InRange → (f (s.healthOf q)).InRange)
    (hm : (f (s.healthOf q)).mark = (s.healthOf q).mark)
    (ho : (f (s.healthOf q)).state.outside = (s.healthOf q).state.outside) : NoGain x b (s.modHealth q f) := by
  have get (p : Port) : (s.health.set q (f (s.healthOf q))).get p = if p = q then f (s.healthOf q) else s.healthOf p :=
    PerPort.get_set _ _ _ _
  refine h.of_health (fun law p => ?_) (fun p => ?_) fun p => ?_
  · rw [State.healthOf, get]
    split
    · exact hl (law q)
    · exact law p
  all_goals
    rw [get]
    split
    · next e => subst e; assumption
    · rfl

end Updates
end State.NoGain
end Sys2Proof.Machine
end

section
namespace Sys2Proof.Machine
open Sys2Proof Sys2Proof.Publication

/-! ### The Health Unit's taking of reports (R118 to R121) -/

/-- What the taking of reports keeps, before the ports it has marked are put to wait. -/
def State.Judges (b s : State) : Prop :=
  (b.ScoreLaw → s.ScoreLaw) ∧ (∀ p, (b.healthOf p).Continues (s.healthOf p)) ∧ State.CommandsStay (fun _ => False) b s

namespace State.Judges
variable {s t u : State}

theorem refl (s : State) : Judges s s := ⟨id, fun _ => .refl _, fun _ c hc => ⟨c, hc, rfl, .inl rfl, .inl⟩⟩

theorem trans (h : Judges s t) (g : Judges t u) : Judges s u := by
  obtain ⟨scores, health, commands⟩ := h
  obtain ⟨scores', health', commands'⟩ := g
  refine ⟨scores' ∘ scores, fun p => (health p).trans (health' p), fun p c hc => ?_⟩
  obtain ⟨d, hd, same, phase, mark⟩ := commands' p c hc
  obtain ⟨e, he, same', phase', mark'⟩ := commands p d hd
  refine ⟨e, he, same.trans same', ?_, fun hm => (mark hm).elim (fun hs => same ▸ mark' hs) .inr⟩
  rcases phase with e1 | ⟨⟨k, e1⟩, e2⟩ | hx
  · rw [e1]
    exact phase'
  · rcases phase' with e3 | ⟨-, e3⟩ | hx
    · exact .inr (.inl ⟨⟨k, e3 ▸ e1⟩, e2⟩)
    · cases e1.symm.trans e3
    · exact hx.elim
  · exact hx.elim

/-- One record changes: its mark stays, and with it the port's command. -/
theorem modHealth (q : Port) {f : Health → Health} (hl : (s.healthOf q).InRange → (f (s.healthOf q)).InRange)
    (hm : (f (s.healthOf q)).mark = (s.healthOf q).mark)
    (ho : (f (s.healthOf q)).state.outside = (s.healthOf q).state.outside) : Judges s (s.modHealth q f) := by
  have ⟨_, scores, health, commands, _⟩ := (NoGain.refl (x := fun _ => False) s).modHealth q hl hm ho
  exact ⟨scores, health, commands⟩

theorem busy_answerDetached {p : Port} {c : Busy} {q : Port} (h : ((s.answerDetached q).port p).unit.busy = some c) :
    (s.port p).unit.busy = some c ∧ (p = q → c.command = .resetPort) := by
  unfold State.answerDetached at h
  split at h
  · next d hd =>
    split at h
    · next e =>
      refine ⟨h, ?_⟩
      rintro rfl
      cases hd.symm.trans h
      exact e
    · rw [State.post, State.port_modPort] at h
      split at h
      · next e =>
        rw [if_pos (by rw [hd]; rfl)] at h
        cases h
      · next e => exact ⟨h, fun hp => absurd hp e⟩
  · next hd =>
    refine ⟨h, ?_⟩
    rintro rfl
    cases hd.symm.trans h

theorem healthOf_markDetaching (s : State) (p q : Port) (cause : DetachCause) : (s.markDetaching q cause).healthOf p =
    if p = q then { s.healthOf q with mark := true, cause := cause } else s.healthOf p := by
  rw [State.markDetaching, State.answerDetached_frame]
  exact State.healthOf_modHealth s p q fun h => { h with mark := true, cause := cause }

/-- The beginning of the detachment of a port inside the exchange (R124). -/
theorem markDetaching {q : Port} (cause : DetachCause) (hi : (s.healthOf q).state.outside = false) :
    Judges s (s.markDetaching q cause) := by
  have get (p : Port) := healthOf_markDetaching s p q cause
  refine ⟨fun law p => ?_, fun p => ?_, fun p c hc => ?_⟩
  · rw [get]
    split
    · next e => exact e ▸ law p
    · exact law p
  · rw [get]
    split
    · next e => subst e; exact ⟨rfl, fun _ => rfl, fun _ => .inr hi⟩
    · exact .refl _
  · obtain ⟨kept, reset⟩ := busy_answerDetached hc
    refine ⟨c, kept, rfl, .inl rfl, ?_⟩
    rw [get]
    split
    · next e => exact fun _ => .inr (reset e)
    · exact .inl

theorem takeDisturbance (s : State) (p : Port) : Judges s (s.takeDisturbance p) := by
  unfold State.takeDisturbance
  split
  · exact modHealth p id rfl rfl
  · exact refl s

/-- A raised score of a port inside the exchange (R119, R121). -/
theorem raised {g : Health} (hi : g.state.outside = false) {n : Nat} (hn : n ≤ Config.scoreMax) :
    (g.raised n).InRange ∧ (g.raised n).state.outside = g.state.outside := by
  have inside : (g.raised n).state.outside = false := by
    unfold Health.raised
    dsimp only
    split
    · rfl
    · exact hi
  exact ⟨⟨hn, rfl, fun ho => by rw [inside] at ho; cases ho⟩, inside.trans hi.symm⟩

/-- A lowered score of a port inside the exchange (R120, R121). -/
theorem credited {g : Health} (hi : g.state.outside = false) (hg : g.InRange) : g.credited.InRange := by
  obtain ⟨top, -, -⟩ := hg
  refine ⟨(Nat.sub_le _ _).trans top, rfl, fun ho => ?_⟩
  unfold Health.credited at ho
  dsimp only at ho
  split at ho
  · cases ho
  · exact absurd ho (by simp [hi])

theorem outside_credited (g : Health) : g.credited.state.outside = g.state.outside := by
  unfold Health.credited
  dsimp only
  split
  · next e => rw [e.1]; rfl
  · rfl

theorem takePenalty (s : State) (p : Port) (n : Nat) : Judges s (s.takePenalty p n) := by
  have inside (hi : (s.healthOf p).state.outside = false) :
      Judges s (if (s.healthOf p).score + n ≤ Config.scoreMax then
        s.modHealth p fun x => x.raised ((s.healthOf p).score + n) else s.markDetaching p .score) := by
    split
    · next hn =>
      obtain ⟨range, outside⟩ := raised hi hn
      exact modHealth p (fun _ => range) rfl outside
    · exact markDetaching .score hi
  unfold State.takePenalty
  dsimp only
  split
  · exact refl s
  · split
    · next e => exact inside (by rw [e]; rfl)
    · next e => exact inside (by rw [e]; rfl)
    · exact refl s
    · exact takeDisturbance s p

theorem takeReport (s : State) (r : Report) : Judges s (s.takeReport r) := by
  unfold State.takeReport
  split
  · exact takePenalty s _ _
  · unfold State.takeCredit
    dsimp only
    split
    · exact refl s
    · next h =>
      obtain ⟨-, hi⟩ : (s.healthOf r.port).mark = false ∧ (s.healthOf r.port).state.outside = false := by simpa using h
      exact modHealth r.port (credited hi) rfl (outside_credited _)
  · exact takeDisturbance s _

theorem takeReportsOf (s : State) (rs : List Report) (p : Port) : Judges s (s.takeReportsOf rs p) := by
  have taken (l : List Report) (u : State) (hu : Judges s u) : Judges s (l.foldl State.takeReport u) :=
    foldl_keeps (fun u r hu => hu.trans (takeReport u r)) l u hu
  unfold State.takeReportsOf
  dsimp only
  split
  · exact taken _ s (refl s)
  · refine taken _ _ ?_
    rw [State.pick_frame]
    exact refl s

/-- The ports that are put to wait join the waiting detachments. -/
theorem flatten_waitToDetach (s : State) (ps : List Port) :
    (s.waitToDetach ps).detachQueue.flatten = s.detachQueue.flatten ++ ps := by
  cases ps <;> simp [State.waitToDetach]

theorem waitToDetach_frame (s : State) (ps : List Port) :
    s.waitToDetach ps = { s with detachQueue := (s.waitToDetach ps).detachQueue } := by
  cases ps <;> rfl

end State.Judges

namespace State.NoGain
variable {x : Port → Prop} {b s : State}

/-- Marks that are set together, and put to wait. -/
theorem waitToDetach {t : State} {ps : List Port} (h : NoGain x b s) (hj : State.Judges s t)
    (cleared : ∀ p st, s.Cleared p st → t.Cleared p st) (hd : t.detaching = s.detaching) (hq : t.detachQueue = s.detachQueue)
    (hps : ps.Nodup) (hm : ∀ p, p ∈ ps ↔ (t.healthOf p).mark = true ∧ (s.healthOf p).mark = false) :
    NoGain x b (t.waitToDetach ps) := by
  obtain ⟨scores, health, commands⟩ := hj
  refine h.trans ?_
  have waiting := State.Judges.flatten_waitToDetach t ps
  rw [State.Judges.waitToDetach_frame]
  refine ⟨fun p st _ hc => cleared p st hc, scores, health, fun p c hc => ?_, hd, ps, ?_, hps, hm⟩
  · obtain ⟨d, hd, same, phase, mark⟩ := commands p c hc
    exact ⟨d, hd, same, phase.imp_right (Or.imp_right False.elim), mark⟩
  · exact hq ▸ waiting

theorem settle (h : NoGain x b s) : NoGain x b s.settle := by
  have taken : ∀ u : State, u = Port.all.foldl (fun u p => u.takeReportsOf s.reports p) { s with reports := [] } →
      State.Judges s u ∧ ∃ H P n, u = { s with reports := [], health := H, ports := P, freeCount := n } := by
    rintro u rfl
    refine foldl_keeps (P := fun u => State.Judges s u ∧ ∃ H P n, u = { s with reports := [], health := H, ports := P, freeCount := n })
      ?_ _ _ ⟨.refl s, s.health, s.ports, s.freeCount, rfl⟩
    rintro u p ⟨hj, H, P, n, e⟩
    refine ⟨hj.trans (.takeReportsOf u _ p), ?_⟩
    rw [State.takeReportsOf_frame, e]
    exact ⟨_, _, _, rfl⟩
  obtain ⟨judges, H, P, n, e⟩ := taken _ rfl
  unfold State.settle
  dsimp only
  rw [e] at judges ⊢
  refine h.waitToDetach (s := s) judges (fun p st hc => ?_) rfl rfl ((by decide : Port.all.Nodup).filter _) fun p => ?_
  · cases st <;> exact hc
  · simp

end State.NoGain
end Sys2Proof.Machine
end

section
namespace Sys2Proof.Machine
open Sys2Proof Sys2Proof.Publication

/-! ### No port gains by the operations of the blocks

An operation that moves none of the records of `State.NoGain` has it of its argument, by definition. -/

namespace State.NoGain

section Operations
variable {x : Port → Prop} {b s t : State} (h : NoGain x b s)
include h

omit h in
theorem of_eq (e : t = s) (h : NoGain x b s) : NoGain x b t := e ▸ h

theorem report (p : Port) (r : ReportKind) : NoGain x b (s.report p r) := h
theorem noteReport (p : Port) (r : ReportKind) : NoGain x b (s.noteReport p r) := h
theorem modFlight (f : Landing → Landing) : NoGain x b (s.modFlight f) := h
theorem pick (n : Nat) : NoGain x b (s.pick n).2 := of_eq (s.pick_frame n) h
theorem shuffle {α : Type} (l : List α) : NoGain x b (s.shuffle l).2 := of_eq (s.shuffle_frame l) h
theorem ripen (k : SlotIx) : NoGain x b (s.ripen k) := of_eq (s.ripen_frame k) h
theorem unripen (k : SlotIx) : NoGain x b (s.unripen k) := h

theorem post (p : Port) (r : Result) : NoGain x b (s.post p r) := h.modPort p fun c hc => by
  split at hc
  · cases hc
  · exact hc

theorem refuse (p : Port) (r : Result) : NoGain x b (s.refuse p r) := (h.post p r).report p _

theorem completeAll (c : Command) : NoGain x b (s.completeAll c) :=
  h.foldl (fun _ p hu => ite (fun _ => hu.post p .done) fun _ => hu) _

theorem viewsGone (k : SlotIx) : NoGain x b (s.viewsGone k) :=
  h.foldl (fun _ _ hu => ite (fun e => hu.setPhase (.inl ⟨⟨k, e⟩, rfl⟩)) fun _ => hu) _

/-! Notes: a CLOSED port takes none. -/

theorem appendNote (p : Port) (n : Note) : NoGain x b (s.appendNote p n) := by
  refine h.of_notes ⟨_, _, s.appendNote_frame p n⟩ fun q hq hd => ?_
  by_cases e : q = p
  · subst e
    have closed : s.appendNote q n = s := by simp [State.appendNote, appendTest, hd]
    rw [closed]
    exact ⟨hq, hd⟩
  · rw [s.noteUnit_appendNote_ne e]
    exact ⟨hq, hd⟩

theorem appendEach (ps : PortSet) (n : Port → Note) : NoGain x b (s.appendEach ps n) :=
  h.foldl (fun _ p hu => ite (fun _ => hu.appendNote p _) fun _ => hu) _

theorem tell (ps : PortSet) (r : Reason) (k : SlotIx) : NoGain x b (s.tell ps r k) := h.appendEach ps _

theorem tellDropped (src : Source) (k : SlotIx) : NoGain x b (s.tellDropped src k) := by
  cases src with
  | port p => exact ite (fun _ => h.appendNote p _) fun _ => h
  | exchange => exact h

theorem sealNotes (k : SlotIx) : NoGain x b (s.sealNotes k) := by
  refine h.of_notes ⟨_, _, rfl⟩ fun q hq hd => ?_
  rw [State.noteUnit, State.sealNotes, PerPort.get_ofFn]
  exact ⟨by dsimp only; rw [hq]; rfl, hd⟩

theorem popNote (p : Port) : NoGain x b (s.popNote p) := by
  unfold State.popNote
  split
  · exact h.modPort p fun _ => id
  · next hq =>
    refine noteReport (modNotes (h.modPort p fun _ => id) p fun e => ?_) p _
    cases hq.symm.trans e

/-! Freezing and the watch. -/

theorem setParked (k : SlotIx) (o : Option Offer) : NoGain x b (s.setParked k o) := h.modSlot_sets k (by exact fun _ => ⟨rfl, rfl, rfl⟩)

theorem dueToRipe : NoGain x b s.dueToRipe :=
  foldl (s := { s with due := [] }) h (fun _ o hu => (hu.setParked o.slot (some o)).ripen o.slot) _

theorem becomeFrozen : NoGain x b s.becomeFrozen :=
  (((dueToRipe (s := { s with exchange := .frozen, freezeMark := false, task := none }) h).completeAll .freeze).completeAll
    .step).completeAll .resume

theorem callFreeze : NoGain x b s.callFreeze := by
  unfold State.callFreeze
  split
  · exact ite (fun _ => h) fun _ => h.becomeFrozen
  · dsimp only
    split
    · exact ite (fun _ => h) fun _ => becomeFrozen (s := { s with freezeMark := true }) h
    all_goals exact h
  all_goals exact h

theorem drainNext : NoGain x b s.drainNext := by
  unfold State.drainNext
  refine ite (fun _ => h.becomeFrozen) fun _ => ?_
  split
  · exact h
  · exact completeAll (s := { s with exchange := .running, task := none }) h .resume

theorem landingEnded : NoGain x b s.landingEnded := by
  unfold State.landingEnded
  refine ite (fun _ => h) fun _ => ?_
  split
  · exact h.becomeFrozen
  · split
    · exact h.drainNext
    all_goals exact h.becomeFrozen
  all_goals exact h

theorem offerAct (kind : ActKind) (d : Bool) (k : SlotIx) (src : Source) : NoGain x b (s.offerAct kind d k src) := by
  have recorded : NoGain x b (s.recordMatch kind d k src) := h
  unfold State.offerAct
  refine ite (fun _ => ?_) fun _ => h
  dsimp only
  split
  · exact recorded
  all_goals exact recorded.callFreeze

/-! Landings, and the Commit Unit. -/

theorem beginLanding (o : Offer) : NoGain x b (s.beginLanding o) :=
  h.modSlot_sets (f := Slot.land o) o.slot (by exact fun _ => ⟨rfl, rfl, rfl⟩)

/-- A value superseded on its slot leaves the subscribers in the missed set, none of which is CLOSED. -/
theorem park (o : Offer) : NoGain x b (s.park o) := by
  refine h.modSlot o.slot (fun _ _ => id) fun p hd hp => ⟨hp.1, ?_⟩
  dsimp only
  split
  · simp [hp.2, State.subscribes, hd]
  · exact hp.2

omit h in
/-- A landing keeps the relation where leaving its place and staying there do; both begin with the offer recorded. -/
theorem tryLanding (o : Offer) (d : Bool) {gone stays : State → State} (hg : ∀ w, NoGain x b (gone { s with watch := w }))
    (hs : ∀ w, NoGain x b (stays { s with watch := w })) : NoGain x b (s.tryLanding o d gone stays) := by
  rcases s.tryLanding_cases o d gone stays with ⟨-, e⟩ | ⟨-, e⟩ | ⟨-, e⟩ <;> rw [e, State.recordLanding_frame]
  · exact (hg _).beginLanding o
  · exact ((hg _).beginLanding o).callFreeze
  · exact (hs _).becomeFrozen

theorem commitOnEmpty (k : SlotIx) : NoGain x b (s.commitOnEmpty k) := by
  have watched (w : Watch) : NoGain x b { s with watch := w } := h
  unfold State.commitOnEmpty
  split
  · exact h
  · next o _ =>
    have due : NoGain x b (s.toDue k o) := h.setParked k none
    split
    · exact ite (fun _ => due) fun _ =>
        tryLanding o true (fun w => (watched w).setParked k none) fun w => ((watched w).setParked k _).ripen k
    · exact due
    · exact h.ripen k
    · exact h.ripen k
    · exact h

theorem takeHead {o : Offer} {rest : List Offer} (e : s.queue = o :: rest) : NoGain x b (s.takeHead o rest) := by
  have gone : NoGain x b { s with queue := rest } :=
    h.requeue fun p _ hp a ha => hp a (e ▸ List.mem_cons_of_mem o ha)
  have stays : NoGain x b { s with queue := o.marked :: rest } := h.requeue fun p _ hp a ha => by
    rcases List.mem_cons.mp ha with rfl | ha
    · exact hp o (e ▸ List.mem_cons_self)
    · exact hp a (e ▸ List.mem_cons_of_mem o ha)
  exact ite (fun _ => tryLanding o false (fun _ => gone) fun _ => stays) fun _ => gone.park o

theorem takeDue (o : Offer) (rest : List Offer) : NoGain x b (s.takeDue o rest) := tryLanding o true (fun _ => h) fun _ => h

theorem takeRipe (k : SlotIx) : NoGain x b (s.takeRipe k) := by
  have watched (w : Watch) : NoGain x b { s with watch := w } := h
  unfold State.takeRipe
  split
  · exact h
  · exact tryLanding _ true (fun w => (watched w).setParked k none) fun w => (watched w).setParked k _

theorem takeDrain (k : SlotIx) : NoGain x b (s.takeDrain k) := by
  unfold State.takeDrain
  refine ite (fun _ => h.takeRipe k) fun _ => ?_
  dsimp only
  split
  · exact h.drainNext.takeRipe _
  all_goals exact h.drainNext

theorem takeStep (i : Item) : NoGain x b (s.takeStep i) := by
  cases i with
  | ripe k => exact ite (fun _ => h.takeRipe k) fun _ => h.becomeFrozen
  | head n =>
    unfold State.takeStep
    dsimp only
    split
    · next o rest e =>
      have taken := h.takeHead e
      exact ite (fun _ => ite (fun _ => taken) fun _ => taken.becomeFrozen) fun _ => h.becomeFrozen
    · exact h.becomeFrozen

theorem takeNext : NoGain x b s.takeNext := by
  unfold State.takeNext
  refine ite (fun _ => h) fun _ => ?_
  split
  · split
    · exact h.takeDue _ _
    · split
      · next e => exact h.takeHead e
      · exact h
  · split
    · exact h.takeStep _
    · exact h.takeDrain _
    · exact h
  all_goals exact h

/-! Retirement, holds and views. -/

theorem completeRetirement (k : SlotIx) : NoGain x b (s.completeRetirement k) := by
  have told := (h.tell (s.subscribers k) .retired k).sealNotes k
  have cleared (p : Port) := PortSet.has_empty p
  exact (told.modSlot k (fun p _ _ => cleared p) fun p _ _ => ⟨cleared p, cleared p⟩).viewsGone k

theorem testRetirement (k : SlotIx) : NoGain x b (s.testRetirement k) := ite (fun _ => h.completeRetirement k) fun _ => h

theorem endHold (p : Port) : NoGain x b (s.endHold p) := by
  unfold State.endHold
  split
  · exact h
  · next o _ =>
    have unheld : NoGain x b (s.setHold p none) := h.setHold (.inl rfl)
    exact ite (fun _ => (unheld.commitOnEmpty o.slot).testRetirement o.slot) fun _ => unheld

theorem reclaimDue (k : SlotIx) : NoGain x b (s.reclaimDue k) := by
  unfold State.reclaimDue
  split
  · exact h.setParked k _
  · exact h

omit h in
/-- A port leaves the unread and missed sets of a slot record. -/
theorem seenBy_sets (r : Slot) (p q : Port) (hr : r.unread.has q = false ∧ r.missed.has q = false) :
    (r.seenBy p).unread.has q = false ∧ (r.seenBy p).missed.has q = false := by
  simp [Slot.seenBy, PortSet.has_erase, hr.1, hr.2]

theorem capture {p : Port} (hp : x p) (k : SlotIx) : NoGain x b (s.capture p k) :=
  (h.setHold (.inr hp)).modSlot k (fun _ _ => id) fun q _ => seenBy_sets _ p q

theorem grantView {p : Port} (hp : x p) (k : SlotIx) : NoGain x b (s.grantView p k) :=
  (((((h.endHold p).capture hp k).reclaimDue k).unripen k).post p .done).offerAct _ _ _ _

theorem takeView {p : Port} (hp : x p) (n : Byte) : NoGain x b (takeView p n s) := by
  unfold Machine.takeView
  split
  · exact h.refuse p _
  · next k _ =>
    exact ite (fun _ => ((h.capture hp k).post p .done).offerAct _ _ _ _) fun _ =>
      ite (fun _ => h.setPhase (.inr hp)) fun _ => h.grantView hp k

theorem grantWaiting {p : Port} (hp : x p) : NoGain x b (s.grantWaiting p) := by
  unfold State.grantWaiting
  split
  · exact ite (fun _ => h) fun _ => h.grantView hp _
  · exact ite (fun _ => h) fun _ => h.refuse p _
  all_goals exact h

theorem takeNote (p : Port) : NoGain x b (takeNote p s) := by
  have picked := h.pick 2
  exact ite (fun _ => ite (fun _ => (picked.popNote p).endHold p) fun _ => (picked.endHold p).popNote p)
    fun _ => (h.popNote p).endHold p

theorem expireHold (p : Port) : NoGain x b (expireHold p s) := by
  unfold Machine.expireHold
  split
  · exact h
  · exact ite (fun _ => ((h.endHold p).appendNote p _).report p _) fun _ => h

theorem takeRelease (p : Port) : NoGain x b (takeRelease p s) := by
  unfold Machine.takeRelease
  split
  · exact h.refuse p _
  · exact (h.endHold p).post p .done

end Operations
end State.NoGain
end Sys2Proof.Machine
end

section
namespace Sys2Proof.Machine
open Sys2Proof Sys2Proof.Publication

/-! ### No port gains by the rest of the blocks -/

namespace State.NoGain

section Blocks
variable {x : Port → Prop} {b s : State} (h : NoGain x b s)
include h

/-! PUBLISH, REQUEST, the parts of a landing. -/

theorem appendEntry {o : Offer} (ho : ∀ p, o.source = .port p → x p) : NoGain x b (s.appendEntry o) :=
  h.requeue fun p hx hp a ha => by
    rcases List.mem_append.mp ha with ha | ha
    · exact hp a ha
    · rw [List.mem_singleton.mp ha]
      exact fun e => hx (ho p e)

theorem takePublish {p : Port} (hp : x p) (n : Byte) : NoGain x b (takePublish p n s) := by
  unfold Machine.takePublish
  split
  · exact h.refuse p _
  · next k _ =>
    have entered : NoGain x b (s.appendEntry (s.newEntry p k)) := h.appendEntry fun q e => by cases e; exact hp
    exact (entered.report p .credit).post p .done

theorem addRequester {p : Port} (hp : x p) (k : SlotIx) {f : Slot → Slot} (hf : ∀ r, (f r).requesters = r.requesters.insert p)
    (hu : ∀ r, (f r).unread = r.unread) (hm : ∀ r, (f r).missed = r.missed) : NoGain x b (s.modSlot k f) := by
  refine h.modSlot k (fun q hq hr => ?_) fun q _ hr => by rw [hu, hm]; exact hr
  have : q ≠ p := fun e => hq (e ▸ hp)
  simp [hf, PortSet.has_insert, this, hr]

theorem beginRound {p : Port} (hp : x p) (k : SlotIx) : NoGain x b (s.beginRound p k) := by
  have begun (d : Time) : NoGain x b (s.modSlot k fun r => { r.addRequester p with deadline := some d }) :=
    h.addRequester hp k (fun _ => rfl) (fun _ => rfl) fun _ => rfl
  unfold State.beginRound
  dsimp only
  split
  · exact (begun _).appendNote _ _
  · exact (begun _).appendEntry nofun

theorem takeRequest {p : Port} (hp : x p) (n : Byte) : NoGain x b (takeRequest p n s) := by
  unfold Machine.takeRequest
  split
  · exact h.refuse p _
  · next k _ =>
    have joined : NoGain x b (s.modSlot k (Slot.addRequester p)) :=
      h.addRequester hp k (fun _ => rfl) (fun _ => rfl) fun _ => rfl
    exact ite (fun _ => ((h.beginRound hp k).post p .done).offerAct _ _ _ _) fun _ =>
      (joined.post p .done).offerAct _ _ _ _

theorem endRound (k : SlotIx) : NoGain x b (s.modSlot k Slot.endRound) :=
  h.modSlot k (fun p _ _ => PortSet.has_empty p) fun _ _ => id

theorem timeOutRequesters (k : SlotIx) : NoGain x b (s.timeOutRequesters k) := (h.tell _ _ k).endRound k

theorem expireDeadline (k : SlotIx) : NoGain x b (expireDeadline k s) := by
  unfold Machine.expireDeadline
  split
  · exact h
  · exact ite (fun _ => ite (fun _ => (h.timeOutRequesters k).report _ _) fun _ => h.timeOutRequesters k) fun _ => h

theorem serveLanding : NoGain x b (serveLanding s) := by
  unfold Machine.serveLanding
  split
  · exact h
  · split
    · exact h
    · exact (h.endRound _).modFlight _

/-- The ports told of a landing are none of them CLOSED. -/
theorem notifyLanding : NoGain x b (notifyLanding s) := by
  unfold Machine.notifyLanding
  split
  · exact h
  · next l _ =>
    split
    · exact h
    · next served _ =>
      refine ite (fun _ => h) fun _ => modFlight (appendEach (h.modSlot _ (fun _ _ => id) fun p hd hp => ?_) _ _) _
      obtain ⟨unread, missed⟩ := hp
      exact ⟨by simp [State.toldOf, State.subscribes, hd], by simp [unread, missed]⟩

theorem timeLanding : NoGain x b (timeLanding s) := by
  unfold Machine.timeLanding
  split
  · exact h
  · exact ite (fun _ => h) fun _ => modFlight (h.modSlot_sets _ (by exact fun _ => ⟨rfl, rfl, rfl⟩)) _

/-! The time base. -/

theorem tick : NoGain x b (tick s) := ite (fun _ => ite (fun _ => ite (fun _ => h) fun _ => h) fun _ => h) fun _ => h

theorem moveTimers (d : Time) : NoGain x b (s.moveTimers d) := by
  have timed : NoGain x b { s with health := PerPort.ofFn fun p => { s.healthOf p with quiet := (s.healthOf p).quiet.map (· + d) } } :=
    h.of_health (fun law p => by rw [State.healthOf, PerPort.get_ofFn]; exact law p) (fun p => by rw [PerPort.get_ofFn])
      fun p => by rw [PerPort.get_ofFn]
  have moved := timed.mapSlots (f := fun r =>
    { r with deadline := r.deadline.map (· + d), freshness := r.freshness.map (· + d) }) fun _ _ => ⟨id, id⟩
  refine moved.of_cleared (fun p st hx hc => ?_) rfl rfl rfl rfl
  cases st with
  | hold =>
    show (s.moveTimers d).hold p = none
    rw [State.hold_moveTimers]
    exact Option.map_eq_none_iff.mpr hc
  | _ => exact hc

theorem takeSetTime (p : Port) : NoGain x b (takeSetTime p s) :=
  post (s := { s.moveTimers _ with time := _, prescaler := _ }) (h.moveTimers _) p .done

theorem expireFreshness (k : SlotIx) : NoGain x b (expireFreshness k s) := by
  unfold Machine.expireFreshness
  split
  · exact h
  · exact ite (fun _ => tell (h.modSlot_sets k (by exact fun _ => ⟨rfl, rfl, rfl⟩)) _ _ k) fun _ => h

/-! The Slot Table's commands. -/

theorem ifToken (p : Port) {f : State → State} (hf : NoGain x b (f s)) : NoGain x b (s.ifToken p f) :=
  ite (fun _ => hf) fun _ => h.refuse p _

theorem takeConfigure (p : Port) (n : Byte) : NoGain x b (takeConfigure p n s) := by
  unfold Machine.takeConfigure
  split
  · exact h.refuse p _
  · next k _ =>
    have cleared (q : Port) := PortSet.has_empty q
    have configured (c : SlotConfig) (o : Bool) : NoGain x b (s.modSlot k fun _ => Slot.configured c o) :=
      h.modSlot k (fun q _ _ => cleared q) fun q _ _ => ⟨cleared q, cleared q⟩
    exact ((configured _ _).post p .done).offerAct _ _ _ _

theorem dropEntries (k : SlotIx) : NoGain x b (s.dropEntries k) := by
  have others : NoGain x b { s with queue := s.queue.filter fun o => o.slot != k } :=
    h.requeue fun p _ hp o ho => hp o (List.mem_filter.mp ho).1
  exact others.foldl (fun _ o hu => hu.tellDropped o.source k) _

theorem dropParked (k : SlotIx) : NoGain x b (s.dropParked k) := by
  have reclaimed := h.reclaimDue k
  unfold State.dropParked
  dsimp only
  split
  · exact reclaimed
  · exact ((reclaimed.setParked k none).unripen k).tellDropped _ k

theorem retireSteps (k : SlotIx) : NoGain x b (s.retireSteps k) :=
  ((((h.modSlot_sets k (by exact fun _ => ⟨rfl, rfl, rfl⟩)).dropEntries k).dropParked k).timeOutRequesters k).modSlot_sets k
    (by exact fun _ => ⟨rfl, rfl, rfl⟩)

theorem takeRetire (p : Port) (n : Byte) : NoGain x b (takeRetire p n s) := by
  unfold Machine.takeRetire
  split
  · exact h.refuse p _
  · next k _ => exact (((h.retireSteps k).testRetirement k).post p .done).offerAct _ _ _ _

/-! The steps of a detachment but the last (R125, R126). -/

theorem withdraw (p : Port) : NoGain x b (s.withdraw p) := h.requeue fun _ _ hq o ho => hq o (List.mem_filter.mp ho).1

theorem discardPublications (p : Port) : NoGain x b (s.discardPublications p) :=
  (h.withdraw p).mapSlots (f := fun r => if r.parkedBy p then { r with parked := none } else r) fun r _ => by
    split <;> exact ⟨id, id⟩

omit h in
/-- A port that drops out of a requester set leaves the others there. -/
theorem dropRequester_has (r : Slot) (p q : Port) :
    (r.dropRequester p).requesters.has q = (q != p && r.requesters.has q) ∧ (r.dropRequester p).unread = r.unread ∧
      (r.dropRequester p).missed = r.missed := by
  unfold Slot.dropRequester
  split
  · exact ⟨PortSet.has_erase _ _ _, rfl, rfl⟩
  · next hp =>
    refine ⟨?_, rfl, rfl⟩
    by_cases e : q = p
    · subst e; simpa using hp
    · simp [e]

theorem dropRequester (p : Port) : NoGain x b (s.mapSlots (Slot.dropRequester p)) := h.mapSlots fun r q => by
  obtain ⟨requesters, unread, missed⟩ := dropRequester_has r p q
  rw [requesters, unread, missed]
  exact ⟨fun hq => by simp [hq], id⟩

theorem loseOwner (p : Port) : NoGain x b { s with lostOwners := s.lostOwners.insert p } := by
  refine h.of_cleared (fun q st hx hc => ?_) rfl rfl rfl rfl
  cases st with
  | requests => exact ⟨hc.1, by rw [PortSet.has_insert, hc.2, Bool.or_true]⟩
  | _ => exact hc

theorem detachRequests (p : Port) : NoGain x b (s.detachRequests p) :=
  (((h.dropRequester p).loseOwner p).shuffle _).foldl (fun _ k hu => hu.timeOutRequesters k) _

theorem flushNotes (p : Port) : NoGain x b (s.flushNotes p) :=
  (h.modNotes p fun _ hd => ⟨rfl, hd⟩).mapSlots fun r q => ⟨id, seenBy_sets r p q⟩

theorem detachNotes (p : Port) : NoGain x b (s.detachNotes p) := (h.flushNotes p).modNotes p fun hq _ => ⟨hq, rfl⟩

theorem orphan (k : SlotIx) : NoGain x b (s.orphan k) := tell (h.modSlot_sets k (by exact fun _ => ⟨rfl, rfl, rfl⟩)) _ _ _

/-- A REJOINING port is sent back to DETACHED (R130). -/
theorem expelOutside (p : Port) : NoGain x b (s.expelOutside p) :=
  ite (fun e => h.modHealth p (fun ⟨top, warn, zero⟩ => ⟨top, warn, fun _ => zero (by rw [e]; rfl)⟩) rfl (by rw [e]; rfl))
    fun _ => h

theorem finishExpels (p : Port) : NoGain x b (s.finishExpels p) := by
  refine h.foldl (fun t q ht => ?_) _
  split
  · exact ite (fun _ => post (ite (fun _ => ht) fun _ => ht.expelOutside p) q .done) fun _ => ht
  all_goals exact ht

/-! The commands of the Health Unit. -/

theorem takeExpel {p : Port} (hp : x p) : NoGain x b (takeExpel p s) := by
  unfold Machine.takeExpel
  split
  · exact h.refuse p _
  · next q _ =>
    refine ite (fun _ => h.refuse p _) fun _ => ite (fun _ => h.setPhase (.inr hp)) fun hm => ?_
    have begins (hi : (s.healthOf q).state.outside = false) :
        NoGain x b (((s.setPhase p (.expelling q true)).markDetaching q .expelled).waitToDetach [q]) := by
      refine (h.setPhase (.inr hp)).waitToDetach (.markDetaching .expelled hi) (fun r st hc => ?_) ?_ ?_ (List.nodup_singleton q)
        fun r => ?_
      · rw [State.markDetaching_frame]
        cases st <;> exact hc
      · rw [State.markDetaching_frame]
      · rw [State.markDetaching_frame]
      · rw [State.Judges.healthOf_markDetaching, List.mem_singleton]
        split
        · next e => subst e; simpa using hm
        · next e =>
          refine iff_of_false e fun ⟨set, clear⟩ => ?_
          cases clear.symm.trans set
    split
    · next e => exact begins (by rw [e]; rfl)
    · next e => exact begins (by rw [e]; rfl)
    · exact (h.expelOutside q).post p .done
    · exact (h.expelOutside q).post p .done

theorem takeRejoinPolicy (p : Port) : NoGain x b (takeRejoinPolicy p s) := by
  unfold Machine.takeRejoinPolicy
  dsimp only
  split
  · exact h.refuse p _
  · next q _ => exact ite (fun _ => h.refuse p _) fun _ => (h.modHealth q id rfl rfl).post p .done

theorem takeRejoin (p : Port) : NoGain x b (takeRejoin p s) := by
  unfold Machine.takeRejoin
  split
  · next e =>
    exact (h.modHealth p (fun ⟨top, warn, zero⟩ => ⟨top, warn, fun _ => zero (by rw [e]; rfl)⟩) rfl (by rw [e]; rfl)).post p .done
  all_goals exact h.refuse p _

/-! The commands of the Control Unit, the View Unit and the Watch Unit. -/

theorem takeClaim {p : Port} (hp : x p) : NoGain x b (takeClaim p s) := by
  unfold Machine.takeClaim
  refine ite (fun _ => h.refuse p _) fun _ => ?_
  split
  · exact ite (fun _ => h.post p .done) fun _ => h.refuse p _
  · exact (h.takeToken hp).post p .done

theorem takeYield (p : Port) : NoGain x b (takeYield p s) := ite (fun _ => h.freeToken.post p .done) fun _ => h.refuse p _

theorem takeFreeze (p : Port) : NoGain x b (takeFreeze p s) := by
  unfold Machine.takeFreeze
  split
  · exact h.callFreeze
  · exact h.callFreeze
  · exact h
  · exact h.post p .done
  · exact h

theorem takeStepCommand (p : Port) : NoGain x b (takeStepCommand p s) := by
  unfold Machine.takeStepCommand
  split
  · split
    · exact h
    · split
      · exact h
      · exact h.refuse p _
  all_goals exact h.refuse p _

theorem takeResume (p : Port) : NoGain x b (takeResume p s) := by
  unfold Machine.takeResume
  split
  · split
    · exact h
    · exact post (s := { s with exchange := .running }) h p .done
  all_goals exact h.refuse p _

/-- The maintenance record is written, and the command done. -/
theorem copied (p : Port) (m : Maintenance) : NoGain x b ((s.modPort p fun u => { u with maintenance := m }).post p .done) :=
  (h.modPort p fun _ => id).post p .done

theorem takeInspect (p : Port) : NoGain x b (takeInspect p s) := by
  unfold Machine.takeInspect
  refine ite (fun _ => h.refuse p _) fun _ => ?_
  split
  · exact h.refuse p _
  · split
    · exact h.refuse p _
    · exact h.copied p _

theorem takeCancelHead (p : Port) : NoGain x b (takeCancelHead p s) := by
  unfold Machine.takeCancelHead
  refine ite (fun _ => h.refuse p _) fun _ => ?_
  split
  · exact h.refuse p _
  · next o rest e =>
    have taken : NoGain x b { s with queue := rest } := h.requeue fun q _ hq a ha => hq a (e ▸ List.mem_cons_of_mem o ha)
    exact post (ite (fun _ => taken.timeOutRequesters o.slot) fun _ => taken.tellDropped o.source o.slot) p .done

theorem takeHoldTimeout (p : Port) : NoGain x b (takeHoldTimeout p s) :=
  ite (fun _ => h.refuse p _) fun _ => post (s := { s with holdTimeout := _ }) h p .done

theorem takeArm (p : Port) : NoGain x b (takeArm p s) := by
  unfold Machine.takeArm
  dsimp only
  split
  · exact h.refuse p _
  · exact post (s := { s with watch := _ }) h p .done

theorem takeReadCapture (p : Port) : NoGain x b (takeReadCapture p s) := by
  unfold Machine.takeReadCapture
  split
  · exact h.refuse p _
  · exact h.copied p _

/-- A command that its block takes gives the issuing port alone a token, a hold, an entry or a request. -/
theorem takeCommand {p : Port} (hp : x p) (c : Command) (n : Byte) : NoGain x b (takeCommand c p n s) := by
  cases c with
  | publish => exact h.takePublish hp n
  | view => exact h.takeView hp n
  | release => exact h.takeRelease p
  | request => exact h.takeRequest hp n
  | claimToken => exact h.takeClaim hp
  | yieldToken => exact h.takeYield p
  | configureSlot => exact h.ifToken p (h.takeConfigure p n)
  | retireSlot => exact h.ifToken p (h.takeRetire p n)
  | setHoldTimeout => exact h.ifToken p (h.takeHoldTimeout p)
  | setTime => exact h.ifToken p (h.takeSetTime p)
  | setRejoinPolicy => exact h.ifToken p (h.takeRejoinPolicy p)
  | expel => exact h.ifToken p (h.takeExpel hp)
  | restart => exact h.ifToken p h
  | freeze => exact h.ifToken p (h.takeFreeze p)
  | resume => exact h.ifToken p (h.takeResume p)
  | step => exact h.ifToken p (h.takeStepCommand p)
  | inspect => exact h.ifToken p (h.takeInspect p)
  | cancelHead => exact h.ifToken p (h.takeCancelHead p)
  | armWatch => exact h.ifToken p (h.takeArm p)
  | disarmWatch => exact h.ifToken p (post (s := { s with watch := _ }) h p .done)
  | readCapture => exact h.ifToken p (h.takeReadCapture p)
  | rejoin => exact h.takeRejoin p
  | resetPort => exact h

/-! The command unit's own answers, the bus cycles, and a port reset. -/

theorem overrun (p : Port) : NoGain x b (s.overrun p) := (h.modPort p fun _ => id).report p _

theorem writeUndefined (p : Port) : NoGain x b (s.writeUndefined p) :=
  ite (fun _ => h.overrun p) fun _ => (h.modPort p fun _ hc => by cases hc).report p _

theorem writeStored (p : Port) (off : BitVec 6) (w : Word) : NoGain x b (s.writeStored p off w) := by
  have stored (f : PortUnit → PortUnit) (hf : ∀ u, (f u).unit = u.unit) : NoGain x b (s.modPort p f) :=
    h.modPort p fun c hc => by rwa [hf] at hc
  have filtered (n : Nat) : NoGain x b (s.writeFilter p n w) := h.modNotes p fun hq hd => ⟨hq, hd⟩
  unfold State.writeStored
  exact ite (fun _ => stored _ fun _ => rfl) fun _ => ite (fun _ => stored _ fun _ => rfl) fun _ =>
    ite (fun _ => stored _ fun _ => rfl) fun _ => ite (fun _ => stored _ fun _ => rfl) fun _ =>
    ite (fun _ => stored _ fun _ => rfl) fun _ => ite (fun _ => stored _ fun _ => rfl) fun _ =>
    ite (fun _ => filtered _) fun _ => h

theorem writeEnables (p : Port) (w : Word) : NoGain x b (s.writeEnables p w) := h.modPort p fun _ => id
theorem readResult (p : Port) : NoGain x b (readResult p s) := h.modPort p fun _ => id
theorem readTimeLow (p : Port) : NoGain x b (readTimeLow p s) := h.modPort p fun _ => id

theorem finishResetPort (p : Port) : NoGain x b (finishResetPort p s) := ite (fun _ => h.post p _) fun _ => h

theorem resetNotes (p : Port) : NoGain x b (s.resetNotes p) := (h.flushNotes p).modNotes p fun hq hd => ⟨hq, hd⟩

theorem resetViewAndNotes (p : Port) : NoGain x b (s.resetViewAndNotes p) := by
  have picked := h.pick 2
  exact ite (fun _ => ite (fun _ => (picked.endHold p).resetNotes p) fun _ => (picked.resetNotes p).endHold p)
    fun _ => (h.endHold p).resetNotes p

theorem dropToken (p : Port) : NoGain x b (s.freeToken p) := ite (fun _ => h.freeToken) fun _ => h

theorem completeExpels : NoGain x b s.completeExpels := by
  refine h.foldl (fun t q ht => ?_) _
  split
  · exact ht.post q .done
  all_goals exact ht

end Blocks
end State.NoGain
end Sys2Proof.Machine
end

section
namespace Sys2Proof.Machine
open Sys2Proof Sys2Proof.Publication

/-! ### From the relation to the laws (R122, R129, R142) -/

/-- The score law and the law of detached ports go over from `s` to `t`. -/
def State.Upholds (s t : State) : Prop := (s.ScoreLaw → t.ScoreLaw) ∧ (s.DetachedLaw → t.DetachedLaw)

/-- No port: the relation in which none gains. -/
abbrev noPort : Port → Prop := fun _ => False

section Laws
variable {x : Port → Prop} {b s t : State} {p : Port}

theorem State.NoGain.scoreLaw (h : State.NoGain x b s) (law : b.ScoreLaw) : s.ScoreLaw := by
  obtain ⟨-, scores, -⟩ := h
  exact scores law

theorem State.NoGain.markLaw (h : State.NoGain x b s) (law : b.MarkLaw) : s.MarkLaw := by
  obtain ⟨-, -, health, -, running, ps, waiting, nodup, marked⟩ := h
  obtain ⟨marks, waits, apart, inside⟩ := law
  refine ⟨fun p => ?_, ?_, fun p st hp => ?_, fun p hp => ?_⟩
  · have ⟨_, kept, _⟩ := health p
    rw [running, waiting, List.mem_append, ← or_assoc, marks, marked]
    cases hb : (b.healthOf p).mark
    · simp
    · simp [kept hb]
  · rw [waiting]
    refine List.nodup_append.mpr ⟨waits, nodup, ?_⟩
    rintro p hp q hq rfl
    have set := (marks p).mp (.inr hp)
    rw [((marked p).mp hq).2] at set
    cases set
  · rw [running] at hp
    rw [waiting, List.mem_append]
    rintro (hw | hw)
    · exact apart p st hp hw
    · have set := (marks p).mp (.inl ⟨st, hp⟩)
      rw [((marked p).mp hw).2] at set
      cases set
  · obtain ⟨outside, -, new⟩ := health p
    rw [outside]
    exact (new hp).elim (inside p) id

/-- A port that is neither outside the exchange nor marked has taken no step of a detachment. -/
theorem State.MarkLaw.not_clearOf (law : s.MarkLaw) (ho : (s.healthOf p).state.outside = false)
    (hm : (s.healthOf p).mark = false) (st : DetachStep) : ¬s.clearOf p st := by
  obtain ⟨marks, -⟩ := law
  rintro (out | ⟨next, hd, -⟩)
  · cases ho.symm.trans out
  · cases hm.symm.trans ((marks p).mp (.inl ⟨next, hd⟩))

/-- The ports of `x` gain as ports inside the exchange, with no mark and no RESET_PORT in hand. -/
theorem State.NoGain.detachedLaw (h : State.NoGain x b s) (law : b.DetachedLaw)
    (hx : ∀ p, x p → (b.healthOf p).state.outside = false ∧ (b.healthOf p).mark = false ∧
      ∀ c, (b.port p).unit.busy = some c → c.command ≠ .resetPort) : s.DetachedLaw := by
  rw [State.detachedLaw_iff] at law ⊢
  obtain ⟨marks, clear, busy⟩ := law
  have marks' := h.markLaw marks
  obtain ⟨cleared, -, health, commands, running, -⟩ := h
  refine ⟨marks', fun p st hc => ?_, fun p c hc => ?_⟩
  · have before : b.clearOf p st := by
      obtain ⟨outside, -⟩ := health p
      simpa [State.clearOf, State.tookStep, outside, running] using hc
    refine cleared p st (fun hp => ?_) (clear p st before)
    obtain ⟨ho, hm, -⟩ := hx p hp
    exact marks.not_clearOf ho hm st before
  · obtain ⟨d, hd, same, phase, new⟩ := commands p c hc
    obtain ⟨taken, waits⟩ := busy p d hd
    obtain ⟨outside, -, -⟩ := health p
    have stays : d.command = .resetPort ∨ (b.healthOf p).mark = true ∨ (b.healthOf p).state.outside = true → c.phase = d.phase := by
      intro hd'
      rcases phase with e | ⟨⟨k, e⟩, -⟩ | hp
      · exact e
      · rcases hd' with e' | out
        · cases e.symm.trans (taken e')
        · rcases waits out with e' | ⟨-, e', -⟩
          · cases e.symm.trans (taken e')
          · cases e.symm.trans e'
      · obtain ⟨ho, hm, hr⟩ := hx p hp
        rw [ho, hm] at hd'
        exact absurd (by simpa using hd') (hr d hd)
    refine ⟨fun e => (stays (.inl (same ▸ e))).trans (taken (same ▸ e)), fun hs => ?_⟩
    by_cases reset : c.command = .resetPort
    · exact .inl reset
    have back : (s.healthOf p).mark = true → (b.healthOf p).mark = true := fun hm => (new hm).resolve_right reset
    have out : (b.healthOf p).mark = true ∨ (b.healthOf p).state.outside = true := hs.imp back (outside ▸ ·)
    obtain ⟨rejoin, phase', mark⟩ := (waits out).resolve_left (same ▸ reset)
    refine .inr ⟨same ▸ rejoin, (stays (.inr out)).trans phase', ?_⟩
    by_contra hm
    cases mark.symm.trans (back (by simpa using hm))

theorem State.NoGain.upholds (h : State.NoGain noPort b s) : b.Upholds s := ⟨h.scoreLaw, fun law => h.detachedLaw law nofun⟩

namespace State.Upholds

theorem refl (s : State) : s.Upholds s := ⟨id, id⟩

theorem trans {u : State} (h : s.Upholds t) (g : t.Upholds u) : s.Upholds u := by
  obtain ⟨scores, ports⟩ := h
  obtain ⟨scores', ports'⟩ := g
  exact ⟨scores' ∘ scores, ports' ∘ ports⟩

theorem ite {c : Prop} [Decidable c] (ht : c → b.Upholds s) (he : ¬c → b.Upholds t) : b.Upholds (if c then s else t) := by
  split
  · next hc => exact ht hc
  · next hc => exact he hc

theorem foldl {α : Type} {f : State → α → State} (hf : ∀ u a, State.Upholds u (f u a)) (l : List α) (s : State) :
    s.Upholds (l.foldl f s) := foldl_keeps (fun u a hu => hu.trans (hf u a)) l s (refl s)

end State.Upholds

/-! ### The command unit (R124, R131, R147, R171) -/

/-- One port's unit changes, to a BUSY command that the law allows it. -/
theorem State.DetachedLaw.modPort (law : s.DetachedLaw) {f : PortUnit → PortUnit}
    (hf : ∀ c, (f (s.port p)).unit.busy = some c → s.MayBeBusy p c) : (s.modPort p f).DetachedLaw := by
  rw [State.detachedLaw_iff] at law ⊢
  obtain ⟨marks, clear, busy⟩ := law
  refine ⟨marks, clear, fun q c hc => ?_⟩
  rw [State.port_modPort] at hc
  split at hc
  · next e => subst e; exact hf c hc
  · exact busy q c hc

/-- A command that has been taken and is answered at once. -/
theorem State.DetachedLaw.post_modPort (law : s.DetachedLaw) {f : PortUnit → PortUnit} (hf : (f (s.port p)).unit.busy.isSome = true)
    (r : Result) : ((s.modPort p f).post p r).DetachedLaw := by
  unfold State.port at hf
  have answered : (s.modPort p f).post p r = s.modPort p fun u => { f u with unit := (f u).unit.posted r } := by
    simp [State.post, State.modPort, State.port, hf]
  rw [answered]
  exact law.modPort fun _ hc => by cases hc

theorem State.MayBeBusy.of_inside (ho : (s.healthOf p).state.outside = false) (hm : (s.healthOf p).mark = false) {c : Busy}
    (hc : c.command = .resetPort → c.phase = .taken) : s.MayBeBusy p c := ⟨hc, by simp [ho, hm]⟩

/-- A command of a port inside the exchange reaches its block. -/
theorem State.DetachedLaw.takeCommand (law : s.DetachedLaw) (ho : (s.healthOf p).state.outside = false)
    (hm : (s.healthOf p).mark = false) (hb : ∀ c, (s.port p).unit.busy = some c → c.command ≠ .resetPort) (c : Command) (n : Byte) :
    (takeCommand c p n s).DetachedLaw :=
  ((State.NoGain.refl s).takeCommand (x := (· = p)) rfl c n).detachedLaw law fun q e => by subst e; exact ⟨ho, hm, hb⟩

/-- REJOIN makes a DETACHED port REJOINING, and is answered in any case. -/
theorem State.DetachedLaw.takeRejoin_modPort (law : s.DetachedLaw) {f : PortUnit → PortUnit}
    (hf : (f (s.port p)).unit.busy.isSome = true) : (takeRejoin p (s.modPort p f)).DetachedLaw := by
  have refused : ((s.modPort p f).refuse p .notDetached).DetachedLaw := law.post_modPort hf .notDetached
  unfold Machine.takeRejoin
  split
  · next e =>
    have back : (s.modHealth p fun h => h.rejoin s.time).DetachedLaw :=
      ((State.NoGain.refl s).modHealth p (fun ⟨top, warn, zero⟩ => ⟨top, warn, fun _ => zero (by
        rw [State.healthOf_modPort] at e; rw [e]; rfl)⟩) rfl (by rw [State.healthOf_modPort] at e; rw [e]; rfl)).upholds.2 law
    exact State.DetachedLaw.post_modPort (s := s.modHealth p fun h => h.rejoin s.time) (f := f) back hf .done
  all_goals exact refused

end Laws

namespace State.Upholds

theorem resetPort (s : State) (p : Port) {busy : Option Busy} (hb : ∀ c, busy = some c → c.command = .resetPort ∧ c.phase = .taken) :
    s.Upholds (s.resetPort p busy) := by
  have cleared : s.Upholds (s.modPort p fun _ => { PortUnit.reset with unit := { CommandUnit.reset with busy := busy } }) :=
    ⟨id, fun law => law.modPort fun c hc => by
      obtain ⟨reset, taken⟩ := hb c hc
      exact ⟨fun _ => taken, fun _ => .inl reset⟩⟩
  exact cleared.trans (((((((NoGain.refl _).resetViewAndNotes p).withdraw p).dropRequester p).dropToken p).report p _)).upholds

theorem writeCommand (s : State) (p : Port) (c : Command) (n : Byte) : s.Upholds (s.writeCommand p c n) := by
  have busy : ((s.acceptWrite p c n).port p).unit.busy = some ⟨c, n, .taken⟩ := s.busyWith_busy p c n .taken
  unfold State.writeCommand
  refine ite (fun _ => ite (fun _ => refl s) fun _ => resetPort s p fun _ e => by cases e; exact ⟨rfl, rfl⟩) fun hc =>
    ite (fun _ => ((NoGain.refl s).overrun p).upholds) fun _ => ite (fun _ => ?_) fun hd => ?_
  · exact ⟨fun law => ((NoGain.refl (x := noPort) (s.acceptWrite p c n)).refuse p .detached).scoreLaw law,
      fun law => law.post_modPort rfl .detached⟩
  · have clear : c ≠ .rejoin → (s.healthOf p).state.outside = false ∧ (s.healthOf p).mark = false := fun hr => by
      simpa [State.refusesDetached, hr, State.acceptWrite] using hd
    have unmarked : (s.healthOf p).mark = false := by
      by_cases hr : c = .rejoin
      · exact (by simpa [State.refusesDetached, hr, State.acceptWrite] using hd :
          (s.healthOf p).state ≠ .rejoining ∧ (s.healthOf p).mark = false).2
      · exact (clear hr).2
    refine ite (fun _ => ⟨id, fun law => ?_⟩) fun _ => ⟨fun law => ?_, fun law => ?_⟩
    · have waiting : (s.acceptWrite p c n).setPhase p .afterRestart = s.modPort p fun u =>
          { u with unit := { u.unit with busy := some ⟨c, n, .afterRestart⟩, done := false } } := by
        simp [State.setPhase, State.acceptWrite, State.modPort, State.port]
      rw [waiting]
      refine law.modPort fun d hw => ?_
      cases hw
      refine ⟨fun e => absurd e hc, fun out => ?_⟩
      by_cases hr : c = .rejoin
      · exact .inr ⟨hr, rfl, unmarked⟩
      · obtain ⟨ho, hm⟩ := clear hr
        simp [ho, hm] at out
    · exact ((NoGain.refl (s.acceptWrite p c n)).takeCommand (x := (· = p)) rfl c n).scoreLaw law
    · by_cases hr : c = .rejoin
      · subst hr
        exact law.takeRejoin_modPort rfl
      · obtain ⟨ho, hm⟩ := clear hr
        have accepted : (s.acceptWrite p c n).DetachedLaw := law.modPort fun d hw => by
          cases hw
          exact .of_inside ho hm fun _ => rfl
        refine accepted.takeCommand ho hm (fun d hw => ?_) c n
        cases busy.symm.trans hw
        exact hc

theorem writeCommandWord (s : State) (p : Port) (w : Word) : s.Upholds (s.writeCommandWord p w) := by
  unfold State.writeCommandWord
  split
  · exact writeCommand s p _ _
  · exact ((NoGain.refl s).writeUndefined p).upholds

/-- A command that has waited through a restart. -/
theorem release (s : State) (p : Port) : s.Upholds (s.release p) := by
  unfold State.release
  split
  · next c hc =>
    have some : ((s.setPhase p .taken).port p).unit.busy = some { c with phase := .taken } := by
      simp [State.setPhase, hc]
    refine ⟨fun law => ((NoGain.refl (s.setPhase p .taken)).takeCommand (x := (· = p)) rfl c.command c.slotByte).scoreLaw law,
      fun law => ?_⟩
    have ⟨_, waits⟩ := (State.detachedLaw_iff.mp law).2.2 p c hc
    by_cases reset : c.command = .resetPort
    · rw [reset]
      refine law.modPort fun d hd => ?_
      simp only [hc, Option.map_some, Option.some.injEq] at hd
      subst hd
      exact ⟨fun _ => rfl, fun _ => .inl reset⟩
    · by_cases out : (s.healthOf p).mark = true ∨ (s.healthOf p).state.outside = true
      · obtain ⟨rejoin, -⟩ := (waits out).resolve_left reset
        rw [rejoin]
        exact law.takeRejoin_modPort (by simp [hc])
      · obtain ⟨hm, ho⟩ : (s.healthOf p).mark = false ∧ (s.healthOf p).state.outside = false := by simpa using out
        have taken : (s.setPhase p .taken).DetachedLaw := law.modPort fun d hd => by
          simp only [hc, Option.map_some, Option.some.injEq] at hd
          subst hd
          exact .of_inside ho hm fun _ => rfl
        refine taken.takeCommand ho hm (fun d hd => ?_) _ _
        cases some.symm.trans hd
        exact reset
  · exact refl s

/-- A VIEW waits for a port inside the exchange alone (R56, R129). -/
theorem grantWaiting (s : State) (p : Port) : s.Upholds (s.grantWaiting p) := by
  refine ⟨((NoGain.refl s).grantWaiting (x := (· = p)) rfl).scoreLaw, fun law => ?_⟩
  by_cases hw : ∃ k, s.phaseOf p = some (.behindLanding k)
  · obtain ⟨k, hk⟩ := hw
    obtain ⟨c, hc, phase⟩ := Option.map_eq_some_iff.mp hk
    obtain ⟨taken, waits⟩ := (State.detachedLaw_iff.mp law).2.2 p c hc
    have reset : c.command ≠ .resetPort := fun e => by cases phase.symm.trans (taken e)
    have inside : ¬((s.healthOf p).mark = true ∨ (s.healthOf p).state.outside = true) := fun out => by
      obtain ⟨-, e, -⟩ := (waits out).resolve_left reset
      cases phase.symm.trans e
    obtain ⟨hm, ho⟩ : (s.healthOf p).mark = false ∧ (s.healthOf p).state.outside = false := by simpa using inside
    refine ((NoGain.refl s).grantWaiting (x := (· = p)) rfl).detachedLaw law fun q e => ?_
    subst e
    exact ⟨ho, hm, fun d hd => by cases hc.symm.trans hd; exact reset⟩
  · have none : State.NoGain noPort s (s.grantWaiting p) := by
      unfold State.grantWaiting
      split
      · next k e => exact absurd ⟨k, e⟩ hw
      · exact NoGain.ite (fun _ => .refl s) fun _ => (NoGain.refl s).refuse p _
      all_goals exact .refl s
    exact none.upholds.2 law

end State.Upholds
end Sys2Proof.Machine
end

section
namespace Sys2Proof.Machine
open Sys2Proof Sys2Proof.Publication

/-! ### The steps of a detachment (R124 to R127) -/

section Detachment
variable {s : State} {p : Port} {st : DetachStep}

/-- A step clears what it is there to clear. -/
theorem State.cleared_detachStep (s : State) (p : Port) (st : DetachStep) : (s.detachStep p st).Cleared p st := by
  cases st with
  | token =>
    show (s.freeToken p).token ≠ some p
    unfold State.freeToken
    split
    · nofun
    · assumption
  | hold =>
    show (s.endHold p).hold p = none
    rw [State.endHold_frame]
    exact PerPort.get_set_self _ _ _
  | publications =>
    refine State.entriesOf_eq_zero_iff.mpr fun o ho => ?_
    simpa using (List.mem_filter.mp ho).2
  | requests =>
    have left : { s.mapSlots (Slot.dropRequester p) with lostOwners := s.lostOwners.insert p }.Cleared p .requests := by
      refine ⟨fun k => ?_, by simp [PortSet.has_insert]⟩
      show ((s.mapSlots (Slot.dropRequester p)).slot k).requesters.has p = false
      simp [State.slot_mapSlots, (State.NoGain.dropRequester_has _ p p).1]
    have timedOut (u : State) : State.NoGain noPort u
        ((u.shuffle (u.askedOf p)).1.foldl (fun v k => v.timeOutRequesters k) (u.shuffle (u.askedOf p)).2) :=
      ((State.NoGain.refl u).shuffle _).foldl (fun _ k hu => hu.timeOutRequesters k) _
    have ⟨kept, _⟩ := timedOut { s.mapSlots (Slot.dropRequester p) with lostOwners := s.lostOwners.insert p }
    exact kept p .requests id left
  | notes =>
    refine ⟨by simp [State.detachStep, State.detachNotes, State.flushNotes],
      by simp [State.detachStep, State.detachNotes], fun k => ?_⟩
    show ((s.modNotes p _).mapSlots _ |>.slot k).unread.has p = false ∧ ((s.modNotes p _).mapSlots _ |>.slot k).missed.has p = false
    simp [State.slot_mapSlots, Slot.seenBy, PortSet.has_erase]
  | orphan => trivial

/-- The slots of a port that is detached become ORPHANED before its record is written. -/
def State.orphaned (s : State) (p : Port) : State :=
  let c := s.shuffle (s.ownedBy p)
  c.1.foldl State.orphan c.2

theorem State.detachOrphan_eq (s : State) (p : Port) :
    s.detachOrphan p = ((s.orphaned p).modHealth p fun h => h.detachedAt (s.orphaned p).time).finishExpels p := rfl

theorem State.NoGain.orphaned {x : Port → Prop} {b : State} (h : State.NoGain x b s) (p : Port) : State.NoGain x b (s.orphaned p) :=
  (h.shuffle _).foldl (fun _ k hu => hu.orphan k) _

/-- No port gains by a step but the last, and its reports. -/
theorem State.NoGain.detachStep {x : Port → Prop} {b : State} (h : State.NoGain x b s) (p : Port) (hst : st ≠ .orphan) :
    State.NoGain x b (s.detachStep p st) := by
  cases st with
  | token => exact h.dropToken p
  | hold => exact h.endHold p
  | publications => exact h.discardPublications p
  | requests => exact h.detachRequests p
  | notes => exact h.detachNotes p
  | orphan => exact absurd rfl hst

/-- The record of a port that is detached (R127, R131). -/
theorem Health.detachedAt_cases (h : Health) (now : Time) :
    let g := h.detachedAt now
    g.score = 0 ∧ g.warn = false ∧ g.mark = false ∧ g.rejoinCount = 0 ∧ g.cause = h.cause ∧ g.autoRejoin = h.autoRejoin ∧
      (g.state = .detached ∧ g.quiet = none ∧ ¬(h.cause = .score ∧ h.autoRejoin = true) ∨
        g.state = .rejoining ∧ g.quiet = some (now + Config.quietSpan) ∧ h.cause = .score ∧ h.autoRejoin = true) := by
  unfold Health.detachedAt
  dsimp only
  split
  · next e => exact ⟨rfl, rfl, rfl, rfl, rfl, rfl, .inr ⟨rfl, rfl, e⟩⟩
  · next e => exact ⟨rfl, rfl, rfl, rfl, rfl, rfl, .inl ⟨rfl, rfl, e⟩⟩

theorem State.ScoreLaw.detachStep (law : s.ScoreLaw) (p : Port) (st : DetachStep) : (s.detachStep p st).settle.ScoreLaw := by
  refine ((State.NoGain.refl (x := noPort) _).settle).scoreLaw ?_
  by_cases hst : st = .orphan
  · subst hst
    show (s.detachOrphan p).ScoreLaw
    rw [State.detachOrphan_eq]
    refine ((State.NoGain.refl (x := noPort) _).finishExpels p).scoreLaw fun q => ?_
    have before := ((State.NoGain.refl (x := noPort) s).orphaned p).scoreLaw law
    rw [State.healthOf_modHealth]
    split
    · obtain ⟨score, warn, -⟩ := ((s.orphaned p).healthOf p).detachedAt_cases (s.orphaned p).time
      exact ⟨by rw [score]; exact Nat.zero_le _, by rw [warn, score]; rfl, fun _ => score⟩
    · exact before q
  · exact ((State.NoGain.refl (x := noPort) s).detachStep p hst).scoreLaw law

/-- The relation does not read the detachment that runs. -/
theorem State.NoGain.withDetaching {x : Port → Prop} {b : State} (h : State.NoGain x b s) (d : Option (Port × DetachStep)) :
    State.NoGain x { b with detaching := d } { s with detaching := d } := by
  obtain ⟨cleared, scores, health, commands, -, waiting⟩ := h
  refine ⟨fun p st hx hc => ?_, scores, health, commands, rfl, waiting⟩
  have kept := cleared p st hx
  cases st <;> exact kept hc

/-- A detachment goes on to its next step, with the present one taken. -/
theorem State.DetachedLaw.advance {st' : DetachStep} (law : { s with detaching := some (p, st) }.DetachedLaw)
    (hst : stepAfter st = some st') (hc : s.Cleared p st) : { s with detaching := some (p, st') }.DetachedLaw := by
  rw [State.detachedLaw_iff] at law ⊢
  obtain ⟨⟨marks, waits, apart, inside⟩, clear, busy⟩ := law
  refine ⟨⟨fun q => ?_, waits, fun q x hq => ?_, inside⟩, fun q x hq => ?_, busy⟩
  · have before : (∃ x, some (p, st) = some (q, x)) ∨ q ∈ s.detachQueue.flatten ↔ (s.healthOf q).mark = true := marks q
    show (∃ x, some (p, st') = some (q, x)) ∨ q ∈ s.detachQueue.flatten ↔ (s.healthOf q).mark = true
    rw [← before]
    simp
  · cases hq
    exact apart p st rfl
  · have reached : { s with detaching := some (p, st) }.clearOf q x ∨ q = p ∧ x = st := by
      rcases hq with out | ⟨next, hd, hx⟩
      · exact .inl (.inl out)
      · cases hd
        by_cases e : x = st
        · exact .inr ⟨rfl, e⟩
        · refine .inl (.inr ⟨st, rfl, ?_⟩)
          revert hst hx e
          cases st <;> cases x <;> cases st' <;> decide
    rcases reached with before | ⟨rfl, rfl⟩
    · have kept := clear q x before
      cases x <;> exact kept
    · cases x <;> exact hc

/-- The port is DETACHED, or REJOINING, as its last step ends: no command of it is BUSY but a RESET_PORT. -/
theorem State.DetachedLaw.detached (law : { s with detaching := some (p, .orphan) }.DetachedLaw) (now : Time) :
    { s.modHealth p fun h => h.detachedAt now with detaching := none }.DetachedLaw := by
  rw [State.detachedLaw_iff] at law ⊢
  obtain ⟨⟨marks, waits, apart, inside⟩, clear, busy⟩ := law
  have get (q : Port) : { s.modHealth p fun h => h.detachedAt now with detaching := none }.healthOf q =
      if q = p then (s.healthOf p).detachedAt now else s.healthOf q := State.healthOf_modHealth s q p fun h => h.detachedAt now
  have unmarked : ((s.healthOf p).detachedAt now).mark = false := ((s.healthOf p).detachedAt_cases now).2.2.1
  have marked : (s.healthOf p).mark = true := (marks p).mp (.inl ⟨_, rfl⟩)
  refine ⟨⟨fun q => ?_, waits, nofun, fun q hq => ?_⟩, fun q x hq => ?_, fun q c hc => ?_⟩
  · rw [get]
    split
    · next e =>
      subst e
      rw [unmarked]
      simpa using apart q _ rfl
    · next e =>
      have before : (∃ x, some (p, DetachStep.orphan) = some (q, x)) ∨ q ∈ s.detachQueue.flatten ↔
          (s.healthOf q).mark = true := marks q
      show (∃ x : DetachStep, none = some (q, x)) ∨ q ∈ s.detachQueue.flatten ↔ (s.healthOf q).mark = true
      rw [← before]
      simp [Ne.symm e]
  · rw [get] at hq ⊢
    split at hq
    · cases unmarked.symm.trans hq
    · next e => rw [if_neg e]; exact inside q hq
  · have before : x ≠ .orphan → { s with detaching := some (p, .orphan) }.clearOf q x := fun hx => by
      by_cases e : q = p
      · subst e
        exact .inr ⟨_, rfl, by revert hx; cases x <;> decide⟩
      · rcases hq with out | ⟨_, hd, -⟩
        · rw [get, if_neg e] at out
          exact .inl out
        · cases hd
    cases x with
    | orphan => trivial
    | _ => exact clear q _ (before (by decide))
  · obtain ⟨taken, waiting⟩ := busy q c hc
    refine ⟨taken, fun out => ?_⟩
    rw [get] at out ⊢
    split at out
    · next e =>
      subst e
      refine (waiting (.inl marked)).imp_right fun ⟨_, _, mark⟩ => ?_
      cases mark.symm.trans marked
    · next e =>
      rw [if_neg e]
      exact waiting out

/-- A run of a detachment keeps the law, read with the step it has reached. -/
theorem State.DetachedLaw.runDetach (upTo : DetachStep) (fuel : Nat) (st : DetachStep) (s : State)
    (law : { s with detaching := some (p, st) }.DetachedLaw) : (s.runDetach p upTo fuel st).DetachedLaw := by
  induction fuel generalizing s st with
  | zero => exact law
  | succ fuel ih =>
    unfold State.runDetach
    split
    · exact law
    · split
      · next last =>
        have hst : st = .orphan := by revert last; cases st <;> decide
        subst hst
        have run := ((State.NoGain.refl s).orphaned p).withDetaching (some (p, .orphan)) |>.upholds.2 law
        have done := run.detached (s.orphaned p).time
        have told := ((State.NoGain.refl (x := noPort) _).finishExpels p).settle.withDetaching none |>.upholds.2 done
        exact told
      · next st' next =>
        have hst : st ≠ .orphan := by rintro rfl; cases next
        have stepped := ((State.NoGain.refl (x := noPort) s).detachStep p hst).settle
        have settled := (State.NoGain.refl (x := noPort) (s.detachStep p st)).settle
        have ⟨kept, _⟩ := settled
        exact ih _ _ ((stepped.withDetaching _ |>.upholds.2 law).advance next (kept p st id (s.cleared_detachStep p st)))

theorem State.ScoreLaw.runDetach (upTo : DetachStep) (fuel : Nat) (st : DetachStep) (s : State) (law : s.ScoreLaw) :
    (s.runDetach p upTo fuel st).ScoreLaw := by
  induction fuel generalizing s st with
  | zero => exact law
  | succ fuel ih =>
    have stepped := law.detachStep p st
    unfold State.runDetach
    split
    · exact law
    · split
      · exact stepped
      · exact ih _ _ stepped

/-- The port whose detachment begins leaves the waiting detachments. -/
theorem flatten_dropWaiting (p : Port) (ps : List Port) (rest : List (List Port)) :
    (dropWaiting p (ps :: rest)).flatten = (ps.filter fun q => q != p) ++ rest.flatten := by
  simp only [dropWaiting]
  split
  · next e => rw [e]; rfl
  · rfl

/-- A detachment that begins has taken no step. -/
theorem State.DetachedLaw.begin (law : s.DetachedLaw) {ps : List Port} {rest : List (List Port)} (hd : s.detaching = none)
    (hq : s.detachQueue = ps :: rest) (hp : p ∈ ps) :
    { s with detachQueue := dropWaiting p s.detachQueue, detaching := some (p, .token) }.DetachedLaw := by
  rw [State.detachedLaw_iff] at law ⊢
  obtain ⟨⟨marks, waits, -, inside⟩, clear, busy⟩ := law
  rw [hq, List.flatten_cons] at waits
  obtain ⟨first, _, others⟩ := List.nodup_append.mp waits
  have mem (q : Port) : q ∈ (dropWaiting p s.detachQueue).flatten ↔ q ∈ s.detachQueue.flatten ∧ q ≠ p := by
    rw [hq, flatten_dropWaiting, List.flatten_cons, List.mem_append, List.mem_append, List.mem_filter]
    have : q ∈ rest.flatten → q ≠ p := fun h => (others p hp q h).symm
    simp only [bne_iff_ne, ne_eq]
    tauto
  refine ⟨⟨fun q => ?_, ?_, fun q st e => ?_, inside⟩, fun q x hx => ?_, busy⟩
  · show _ ↔ (s.healthOf q).mark = true
    rw [← marks, mem, hd]
    have : p ∈ s.detachQueue.flatten := by rw [hq]; exact List.mem_append_left _ hp
    by_cases e : q = p
    · simp [e, this]
    · simp [e, Ne.symm e]
  · show (dropWaiting p s.detachQueue).flatten.Nodup
    rw [hq, flatten_dropWaiting]
    exact waits.sublist (List.filter_sublist.append (List.Sublist.refl _))
  · cases e
    exact fun h => ((mem p).mp h).2 rfl
  · have before : s.clearOf q x := by
      rcases hx with out | ⟨next, e, place⟩
      · exact .inl out
      · cases e
        exfalso
        revert place
        cases x <;> decide
    have kept := clear q x before
    cases x <;> exact kept

theorem State.Upholds.runDetachment (s : State) (p : Port) (upTo : DetachStep) : s.Upholds (runDetachment p upTo s) := by
  unfold Machine.runDetachment
  split
  · next q st hd =>
    refine .ite (fun e => ⟨fun law => law.runDetach upTo 6 st s, fun law => ?_⟩) fun _ => .refl s
    refine State.DetachedLaw.runDetach upTo 6 st s ?_
    rw [← e, ← hd]
    exact law
  · next hd =>
    split
    · next ps rest hq =>
      refine .ite (fun hp => ⟨fun law => State.ScoreLaw.runDetach upTo 6 .token _ law, fun law => ?_⟩) fun _ => .refl s
      exact State.DetachedLaw.runDetach upTo 6 .token _ (law.begin hd hq hp)
    · exact .refl s

end Detachment

/-! ### The return of a port, and the resets of the part (R134, R136, R145, R181) -/

section Returns
variable {s t : State} {p : Port}

/-- A REJOINING port that returns is inside the exchange and unmarked. -/
theorem State.DetachedLaw.returned (law : s.DetachedLaw) (hp : (s.healthOf p).state = .rejoining) :
    ((s.modHealth p Health.returned).reportActive p).DetachedLaw := by
  rw [State.detachedLaw_iff] at law ⊢
  obtain ⟨marks, clear, busy⟩ := law
  obtain ⟨listed, waits, apart, inside⟩ := marks
  have unmarked : (s.healthOf p).mark = false := by
    by_contra hm
    cases (inside p (by simpa using hm)).symm.trans (by rw [hp]; rfl : _ = true)
  have get (q : Port) : ((s.modHealth p Health.returned).reportActive p).healthOf q =
      if q = p then (s.healthOf p).returned else s.healthOf q := State.healthOf_modHealth s q p Health.returned
  have mark (q : Port) : (((s.modHealth p Health.returned).reportActive p).healthOf q).mark = (s.healthOf q).mark := by
    rw [get]
    split
    · next e => subst e; rfl
    · rfl
  have marks' : ((s.modHealth p Health.returned).reportActive p).MarkLaw := by
    refine ⟨fun q => (listed q).trans (by rw [mark]), waits, apart, fun q hq => ?_⟩
    rw [mark] at hq
    rw [get]
    split
    · rfl
    · exact inside q hq
  have back : (((s.modHealth p Health.returned).reportActive p).healthOf p).state.outside = false := by
    rw [get, if_pos rfl]
    rfl
  refine ⟨marks', fun q st hq => ?_, fun q c hc => ?_⟩
  · have e : q ≠ p := by
      rintro rfl
      exact marks'.not_clearOf back (by rw [mark]; exact unmarked) st hq
    have before := clear q st (by rw [State.clearOf, get, if_neg e] at hq; exact hq)
    have flags (k : SlotIx) : (((s.modHealth p Health.returned).reportActive p).slot k).requesters = (s.slot k).requesters ∧
        (((s.modHealth p Health.returned).reportActive p).slot k).unread = (s.slot k).unread ∧
        (((s.modHealth p Health.returned).reportActive p).slot k).missed = (s.slot k).missed := by
      have slots : ((s.modHealth p Health.returned).reportActive p).slot k =
          if (s.slot k).config.owner = p then { s.slot k with orphaned := false } else s.slot k :=
        State.slot_mapSlots s k fun r => if r.config.owner = p then { r with orphaned := false } else r
      rw [slots]
      split <;> exact ⟨rfl, rfl, rfl⟩
    cases st with
    | requests =>
      obtain ⟨unasked, lost⟩ := before
      refine ⟨fun k => by rw [(flags k).1]; exact unasked k, ?_⟩
      show (s.lostOwners.erase p).has q = true
      simp [PortSet.has_erase, e, lost]
    | notes =>
      obtain ⟨queue, closed, sets⟩ := before
      have unit : ((s.modHealth p Health.returned).reportActive p).noteUnit q = s.noteUnit q := PerPort.get_set_ne _ e _
      exact ⟨by rw [unit]; exact queue, by rw [unit]; exact closed, fun k => by rw [(flags k).2.1, (flags k).2.2]; exact sets k⟩
    | _ => exact before
  · obtain ⟨taken, waiting⟩ := busy q c hc
    refine ⟨taken, fun out => ?_⟩
    rw [mark] at out ⊢
    by_cases e : q = p
    · subst e
      rw [back, unmarked] at out
      simp at out
    · rw [get, if_neg e] at out
      exact waiting out

theorem State.Upholds.endQuiet (s : State) (p : Port) : s.Upholds (endQuiet p s) := by
  unfold Machine.endQuiet
  dsimp only
  split
  · exact .refl s
  · refine .ite (fun hq => .ite (fun _ => ⟨fun law => ?_, fun law => law.returned hq.1⟩) fun _ =>
      ((State.NoGain.refl s).modHealth p id rfl rfl).upholds) fun _ => .refl s
    intro q
    rw [show ((s.modHealth p Health.returned).reportActive p).healthOf q = (s.modHealth p Health.returned).healthOf q from rfl,
      State.healthOf_modHealth]
    split
    · exact ⟨Nat.zero_le _, rfl, fun _ => rfl⟩
    · exact law q

/-- With no port detached or marked the law asks for a RESET_PORT in hand alone. -/
theorem State.detachedLaw_of_inside (hh : ∀ p, (s.healthOf p).mark = false ∧ (s.healthOf p).state.outside = false)
    (hd : s.detaching = none) (hq : s.detachQueue = [])
    (hb : ∀ p c, (s.port p).unit.busy = some c → c.command = .resetPort → c.phase = .taken) : s.DetachedLaw := by
  have marks : s.MarkLaw := by
    refine ⟨fun p => ?_, by simp [hq], by simp [hq], fun p hm => (hh p).2⟩
    simp [hd, hq, (hh p).1]
  refine State.detachedLaw_iff.mpr ⟨marks, fun p st hc => absurd hc (marks.not_clearOf (hh p).2 (hh p).1 st), fun p c hc => ?_⟩
  exact .of_inside (hh p).2 (hh p).1 (hb p c hc)

theorem State.Upholds.beginRestart (s : State) : s.Upholds (beginRestart s) := by
  have gone : State.NoGain noPort s (s.retiringSlots.foldl State.viewsGone s) :=
    (State.NoGain.refl s).foldl (fun _ k hu => hu.viewsGone k) _
  have completed (u : State) : State.NoGain noPort u ((((u.completeAll .freeze).completeAll .step).completeAll .resume).completeExpels) :=
    ((((State.NoGain.refl u).completeAll _).completeAll _).completeAll _).completeExpels
  have record {H : PerPort Health} (hH : H = PerPort.ofFn fun p => (s.healthOf p).restarted) (p : Port) :
      H.get p = (s.healthOf p).restarted := by rw [hH, PerPort.get_ofFn]
  unfold Machine.beginRestart
  refine .ite (fun _ => ?_) fun _ => .refl s
  refine State.Upholds.trans ⟨fun _ p => ?_, fun law => ?_⟩ (completed _).upholds
  · rw [State.healthOf, record rfl]
    exact ⟨Nat.zero_le _, rfl, fun _ => rfl⟩
  · refine State.detachedLaw_of_inside (fun p => ?_) rfl rfl fun p c hc e => ?_
    · rw [State.healthOf, record rfl]
      exact ⟨rfl, rfl⟩
    · obtain ⟨taken, -⟩ := (State.detachedLaw_iff.mp (gone.upholds.2 law)).2.2 p c hc
      exact taken e

theorem State.Upholds.endRestart (s : State) : s.Upholds (endRestart s) := by
  have running : State.NoGain noPort s ({ s with restartMark := false, exchange := .running }.completeAll .restart) :=
    State.NoGain.completeAll (s := { s with restartMark := false, exchange := .running }) (.refl s) _
  have shuffled (l : List Port) := (running.shuffle l).upholds
  exact .ite (fun _ => (shuffled _).trans <|
    State.Upholds.foldl (fun u p => (State.Upholds.release u p).trans (State.NoGain.refl _).settle.upholds) _ _) fun _ => .refl s

theorem State.Upholds.deviceReset (s : State) : s.Upholds s.deviceReset := by
  have record (p : Port) : s.deviceReset.healthOf p = Health.reset := State.reset_healthOf p
  refine ⟨fun _ p => ?_, fun _ => State.detachedLaw_of_inside (fun p => ?_) rfl rfl fun p c hc => ?_⟩
  · rw [record]
    exact ⟨Nat.zero_le _, rfl, fun _ => rfl⟩
  · rw [record]
    exact ⟨rfl, rfl⟩
  · rw [show s.deviceReset.port p = PortUnit.reset from State.reset_port p] at hc
    cases hc

/-- The grant of a VIEW at a landing's end keeps the laws in any order. -/
theorem State.Upholds.endLanding (s : State) : s.Upholds (endLanding s) := by
  unfold Machine.endLanding
  split
  · exact .refl s
  · next l _ =>
    refine .ite (fun _ => ?_) fun _ => .refl s
    have started : State.NoGain noPort s { s with flight := none } := .refl s
    have counted (n : Nat) : State.NoGain noPort s { s with flight := none, freeCount := n } := .refl s
    rcases State.landingOver_cases { s with flight := none } l.offer.slot with e | ⟨n, e | ⟨p, e | e⟩⟩ <;> rw [e]
    · exact started.landingEnded.upholds
    · exact ((counted n).landingEnded.completeRetirement _).upholds
    · exact (counted n).landingEnded.upholds.trans (.grantWaiting _ p)
    · exact (counted n).upholds.trans <| (State.Upholds.grantWaiting _ p).trans (State.NoGain.refl _).landingEnded.upholds

end Returns

/-! ### A step -/

namespace State.Upholds
variable {s t : State}

theorem event {f : State → State} (hf : ∀ u, State.Upholds u (f u)) (e : event f s = .next t) : s.Upholds t := by
  cases e
  exact ite (fun _ => refl s) fun _ => (hf s).trans (NoGain.refl _).settle.upholds

theorem cycle {p : Port} {f : State → State} (hf : ∀ u, State.Upholds u (f u)) (e : cycle p f s = .next t) : s.Upholds t :=
  event (fun u => ite (fun _ => refl u) fun _ => hf u) e

theorem execPortReset {p : Port} (e : execPortReset p s = .next t) : s.Upholds t := by
  unfold Machine.execPortReset at e
  split at e
  · cases e
    exact refl s
  · exact event (s := { s with lineLow := s.lineLow.insert p }) (fun u => resetPort u p fun _ hb => by cases hb) e

/-- Each row of the opcode table keeps the law of the score and the law of detached ports. -/
theorem exec {i : Instr} (e : exec i s = .next t) : s.Upholds t := by
  cases i with
  | undefinedCommand p code n => exact cycle (fun u => writeCommandWord u p _) e
  | registerWrite p off w =>
    exact cycle (fun u => ite (fun _ => writeCommandWord u p w) fun _ => ((NoGain.refl u).writeStored p off w).upholds) e
  | attentionEnableWrite p w => exact cycle (fun u => ((NoGain.refl u).writeEnables p w).upholds) e
  | resultRead p => exact cycle (fun u => ((NoGain.refl u).readResult p).upholds) e
  | timeLowRead p => exact cycle (fun u => ((NoGain.refl u).readTimeLow p).upholds) e
  | noteTake p => exact cycle (fun u => ((NoGain.refl u).takeNote p).upholds) e
  | deviceReset => cases e; exact deviceReset s
  | deviceResetRelease => cases e; exact refl s
  | portReset p => exact execPortReset e
  | resetPortDone p => exact event (fun u => ((NoGain.refl u).finishResetPort p).upholds) e
  | takeNextValue => exact event (fun u => (NoGain.refl u).takeNext.upholds) e
  | landingService => exact event (fun u => (NoGain.refl u).serveLanding.upholds) e
  | landingNotification => exact event (fun u => (NoGain.refl u).notifyLanding.upholds) e
  | landingTimePart => exact event (fun u => (NoGain.refl u).timeLanding.upholds) e
  | landingEnd => exact event endLanding e
  | viewGrant p => exact event (fun u => grantWaiting u p) e
  | holdExpiry p => exact event (fun u => ((NoGain.refl u).expireHold p).upholds) e
  | deadlineExpiry k => exact event (fun u => ((NoGain.refl u).expireDeadline k).upholds) e
  | freshnessExpiry k => exact event (fun u => ((NoGain.refl u).expireFreshness k).upholds) e
  | quietIntervalEnd p => exact event (fun u => endQuiet u p) e
  | detachment p upTo => exact event (fun u => runDetachment u p upTo) e
  | restartBegin => exact event beginRestart e
  | restartEnd => exact event endRestart e
  | timeBaseAdvance => exact event (fun u => (NoGain.refl u).tick.upholds) e
  | _ p n => exact cycle (fun u => writeCommand u p _ n) e

theorem step (e : step s = .next t) : s.Upholds t := by
  unfold Machine.step at e
  split at e
  · cases e
    exact refl s
  · next rest _ => exact exec (s := { s with pending := rest }) e

end State.Upholds
end Sys2Proof.Machine
end

section
namespace Sys2Proof.PortHealth
open Sys2Proof Sys2Proof.Machine

/-- Settles O5: every operation of the part keeps the law of the score, and so does each row of the opcode table. -/
theorem stepKeepsScoreLaw : Obligations.StepKeepsScoreLaw := fun _ _ law e => (State.Upholds.step e).1 law

/-- Settles O10: no operation gives a port what a step of its detachment has cleared, but the return of a REJOINING port and a restart,
after which it is inside the exchange. -/
theorem stepKeepsDetachedLaw : Obligations.StepKeepsDetachedLaw := fun _ _ law e => (State.Upholds.step e).2 law

end Sys2Proof.PortHealth
end

section
namespace Sys2Proof.PortHealth
open Sys2Proof Sys2Proof.Machine Sys2Proof.Publication

/-! ### Penalties, credits and disturbances by health state (R119, R120, R124, R133) -/

section Reports
variable {s : State} {p : Port} {n : Nat}

theorem takePenalty_of_mark (hm : (s.healthOf p).mark = true) : s.takePenalty p n = s := by simp [State.takePenalty, hm]

theorem takeCredit_of_mark (hm : (s.healthOf p).mark = true) : s.takeCredit p = s := by simp [State.takeCredit, hm]

theorem takePenalty_of_detached (hs : (s.healthOf p).state = .detached) : s.takePenalty p n = s := by
  simp [State.takePenalty, hs]

theorem takeCredit_of_outside (ho : (s.healthOf p).state.outside = true) : s.takeCredit p = s := by
  simp [State.takeCredit, ho]

theorem takeDisturbance_of_rejoining (hs : (s.healthOf p).state = .rejoining) : s.takeDisturbance p = s.recounted p := if_pos hs

theorem takePenalty_of_rejoining (hm : (s.healthOf p).mark = false) (hs : (s.healthOf p).state = .rejoining) :
    s.takePenalty p n = s.recounted p := by
  rw [State.takePenalty, hm, if_neg Bool.false_ne_true, hs]
  exact takeDisturbance_of_rejoining hs

theorem takeCredit_of_inside (hm : (s.healthOf p).mark = false) (hi : s.inside p = true) : s.takeCredit p = s.rewarded p := by
  have out : (s.healthOf p).state.outside = false := by simpa [State.inside] using hi
  rw [State.takeCredit, hm, out]
  rfl

/-- A penalty for a port inside the exchange raises the score, or marks the port where the score would pass 255 (R119). -/
theorem takePenalty_of_inside (hm : (s.healthOf p).mark = false) (hi : s.inside p = true) :
    s.takePenalty p n = if (s.healthOf p).score + n ≤ Config.scoreMax then
      s.modHealth p fun x => x.raised ((s.healthOf p).score + n) else s.markDetaching p .score := by
  rw [State.takePenalty, hm, if_neg Bool.false_ne_true]
  rcases inside_iff.mp hi with e | e <;> rw [e]

theorem takePenalty_of_bears (hm : (s.healthOf p).mark = false) (hi : s.inside p = true) (hb : s.bears p n) :
    s.takePenalty p n = s.fined p n := by
  have raised : (s.healthOf p).raised ((s.healthOf p).score + n) =
      { s.healthOf p with
        score := (s.healthOf p).score + n, warn := decide (96 ≤ (s.healthOf p).score + n)
        state := if 128 ≤ (s.healthOf p).score + n then .degraded else (s.healthOf p).state } := by
    rcases inside_iff.mp hi with e | e <;> simp [Health.raised, Health.withScore, Config.degradeAt, e] <;> rfl
  rw [takePenalty_of_inside hm hi, if_pos (by exact hb), State.modHealth, raised]
  rfl

theorem takePenalty_of_not_bears (hm : (s.healthOf p).mark = false) (hi : s.inside p = true) (hb : 255 < (s.healthOf p).score + n) :
    s.takePenalty p n = s.markDetaching p .score := by
  rw [takePenalty_of_inside hm hi, if_neg (by simp only [Config.scoreMax]; omega)]

/-- No command but a RESET_PORT is answered as a detachment begins (R124). -/
theorem answerDetached_of_exempt (h : (s.port p).unit.busy = none ∨ s.inHand p .resetPort = true) : s.answerDetached p = s := by
  unfold State.answerDetached
  rcases h with h | h
  · rw [h]
  · split
    · next b hb =>
      have reset : b.command = .resetPort := by
        simp only [State.inHand, hb, Bool.and_eq_true, beq_iff_eq] at h
        exact h.1
      rw [if_pos reset]
    · rfl

theorem answerDetached_of_busy {b : Busy} (hb : (s.port p).unit.busy = some b) (hc : b.command ≠ .resetPort) :
    s.answerDetached p = s.answered p .detached := by
  simp only [State.answerDetached, hb, if_neg hc]
  exact State.post_busy hb .detached

end Reports

/-- Settles O56: by mark and health state, and for a mark that is newly set by the command in hand. -/
theorem penaltiesAndCredits : Obligations.PenaltiesAndCredits := by
  intro s p n h
  refine ⟨fun hm => ⟨takePenalty_of_mark hm, takeCredit_of_mark hm⟩, fun hm => ⟨fun hi => ?_, fun hs => ?_, fun hs => ?_⟩⟩
  · refine ⟨takeCredit_of_inside hm hi, takePenalty_of_bears hm hi, fun hb => ?_⟩
    have marks := takePenalty_of_not_bears hm hi hb
    refine ⟨fun exempt => ?_, fun b busy hc => ?_⟩
    · exact marks.trans (answerDetached_of_exempt (s := s.modHealth p _) exempt)
    · exact marks.trans (answerDetached_of_busy (s := s.modHealth p _) busy hc)
  · exact ⟨takePenalty_of_detached hs, takeCredit_of_outside (by rw [hs]; rfl)⟩
  · exact ⟨takePenalty_of_rejoining hm hs, takeCredit_of_outside (by rw [hs]; rfl)⟩

end Sys2Proof.PortHealth
end

section
namespace Sys2Proof.PortHealth
open Sys2Proof Sys2Proof.Machine Sys2Proof.Publication

/-! ### Words of COMMAND and the command unit (R171, R176) -/

section Words
variable {s : State} {p : Port} {w : Word}

theorem ofCode_code (c : Command) : Command.ofCode c.code = some c := by cases c <;> decide

theorem code_of_ofCode {b : Byte} {c : Command} (h : Command.ofCode b = some c) : c.code = b := by
  simpa using List.find?_some h

theorem ofCode_of_undefined {b : Byte} (h : ∀ c : Command, c.code ≠ b) : Command.ofCode b = none := by
  by_contra hn
  obtain ⟨c, hc⟩ := Option.ne_none_iff_exists'.mp hn
  exact h c (code_of_ofCode hc)

theorem commandSlot_append (code n : Byte) : commandSlot (code ++ n) = n := by
  refine BitVec.eq_of_getLsbD_eq fun i hi => ?_
  rw [commandSlot, BitVec.getLsbD_extractLsb', BitVec.getLsbD_append]
  simp [hi]

theorem commandCode_append_commandSlot (w : Word) : commandCode w ++ commandSlot w = w := by
  refine BitVec.eq_of_getLsbD_eq fun i hi => ?_
  rw [BitVec.getLsbD_append, commandCode, commandSlot, BitVec.getLsbD_extractLsb', BitVec.getLsbD_extractLsb']
  by_cases h : i < 8
  · simp [h]
  · have high : i - 8 < 8 := by omega
    have place : 8 + (i - 8) = i := by omega
    simp [h, high, place]

/-- The event that a word of COMMAND spells is the write of that word. -/
theorem exec_decodeCommandWord (s : State) (p : Port) (w : Word) :
    exec (decodeCommandWord p w) s = cycle p (fun t => t.writeCommandWord p w) s := by
  cases h : Command.ofCode (commandCode w) with
  | none =>
    have spelled : decodeCommandWord p w = .undefinedCommand p (commandCode w) (commandSlot w) := by simp [decodeCommandWord, h]
    rw [spelled]
    show execUndefinedCommand p _ _ s = _
    rw [execUndefinedCommand, commandCode_append_commandSlot]
  | some c =>
    have written : (fun t : State => t.writeCommandWord p w) = fun t => t.writeCommand p c (commandSlot w) := by
      funext t
      simp [State.writeCommandWord, h]
    rw [written]
    simp only [decodeCommandWord, h]
    cases c <;> rfl

/-- A command, spelled by its code and slot number. -/
theorem exec_command (s : State) (p : Port) (c : Command) (n : Byte) :
    exec (decodeCommandWord p (c.code ++ n)) s = cycle p (fun t => t.writeCommand p c n) s := by
  have written : (fun t : State => t.writeCommandWord p (c.code ++ n)) = fun t => t.writeCommand p c n := by
    funext t
    simp [State.writeCommandWord, Notes.commandCode_append, commandSlot_append, ofCode_code]
  rw [exec_decodeCommandWord, written]

/-- A BUSY unit answers every word but RESET_PORT's with an overrun. -/
theorem writeCommandWord_of_busy (hb : (s.port p).unit.busy.isSome = true) (hw : commandCode w ≠ 0x7F#8) :
    s.writeCommandWord p w = s.overrun p := by
  unfold State.writeCommandWord
  split
  · next c hc =>
    have other : c ≠ .resetPort := by
      rintro rfl
      exact hw (code_of_ofCode hc).symm
    rw [State.writeCommand, if_neg other, if_pos hb]
  · exact if_pos hb

theorem writeUndefined_of_idle (hb : (s.port p).unit.busy = none) :
    s.writeUndefined p = (s.answered p .badCommand).report p (.penalty 4) := by
  rw [State.writeUndefined, hb]
  rfl

/-- What a penalised answer comes to, by mark and health state, in a state `t` that has the health records of `s`. -/
theorem settle_penalty_cases {t : State} (h : t.reports = []) (he : t.health = s.health) (m : Nat) :
    (s.inside p = true → (s.healthOf p).mark = false → s.bears p m → (t.report p (.penalty m)).settle = t.fined p m) ∧
    ((s.healthOf p).mark = true ∨ (s.healthOf p).state = .detached → (t.report p (.penalty m)).settle = t) ∧
    ((s.healthOf p).mark = false → (s.healthOf p).state = .rejoining → (t.report p (.penalty m)).settle = t.recounted p) := by
  have same (q : Port) : t.healthOf q = s.healthOf q := by rw [State.healthOf, he]; rfl
  refine ⟨fun hi hm hb => ?_, fun hd => ?_, fun hm hs => ?_⟩
  · rw [← same] at hm
    exact settle_penalty h (by rw [State.inside, same]; exact hi) hm (by rw [State.bears, same]; exact hb)
  · have ignored : t.takePenalty p m = t := hd.elim (fun hm => takePenalty_of_mark (same p ▸ hm))
      fun hs => takePenalty_of_detached (same p ▸ hs)
    have takes : t.takeReport ⟨p, .penalty m, false⟩ = t := ignored
    rw [settle_report h fun q => by rw [takes], takes]
  · have recounted : t.takePenalty p m = t.recounted p := takePenalty_of_rejoining (same p ▸ hm) (same p ▸ hs)
    have takes : t.takeReport ⟨p, .penalty m, false⟩ = t.recounted p := recounted
    rw [settle_report h fun q => by rw [takes]; exact mark_modHealth t p q (f := fun g => g.disturbed t.time) rfl, takes]

/-- A disturbance counts in REJOINING alone (R133). -/
theorem settle_disturbance_cases {t : State} (h : t.reports = []) (he : t.health = s.health) :
    (t.report p .disturbance).settle = if (s.healthOf p).state = .rejoining then t.recounted p else t := by
  have same : t.healthOf p = s.healthOf p := by rw [State.healthOf, he]; rfl
  have mark (q : Port) : ((t.takeDisturbance p).healthOf q).mark = (t.healthOf q).mark := by
    unfold State.takeDisturbance
    split
    · exact mark_modHealth t p q rfl
    · rfl
  rw [settle_report (k := .disturbance) h mark, ← same]
  rfl

/-- A command of an IDLE unit that the Port Unit answers itself, before it is passed on (R147, R171). -/
theorem writeCommand_of_idle {c : Command} {n : Byte} (hb : (s.port p).unit.busy = none) (hc : c ≠ .resetPort) (hr : c ≠ .rejoin) :
    s.writeCommand p c n =
      if (s.healthOf p).state.outside = true ∨ (s.healthOf p).mark = true then (s.answered p .detached).report p .disturbance
      else if s.exchange = .restarting then s.busyWith p c n .afterRestart
      else takeCommand c p n (s.busyWith p c n .taken) := by
  have refuses : (s.acceptWrite p c n).refusesDetached p c = ((s.healthOf p).state.outside || (s.healthOf p).mark) := by
    simp [State.refusesDetached, hr, State.acceptWrite]
  have refused : (s.acceptWrite p c n).refuse p .detached = (s.answered p .detached).report p .disturbance :=
    congrArg (fun t : State => t.report p .disturbance) (post_busyWith s p c n .detached)
  have waits : (s.acceptWrite p c n).setPhase p .afterRestart = s.busyWith p c n .afterRestart := by
    simp [State.setPhase, State.acceptWrite, State.busyWith, State.modPort, State.port]
  rw [State.writeCommand, if_neg hc, hb, if_neg (by simp)]
  dsimp only
  rw [refuses, refused, waits]
  simp only [Bool.or_eq_true]
  rfl

end Words

/-- Settles O48: the overrun and BAD_COMMAND by the penalty they make, DETACHED by its disturbance, and the wait. -/
theorem commandUnitAnswers : Obligations.CommandUnitAnswers := by
  refine ⟨fun s p w hl => ?_, fun s p c n hl hb hc hr => ?_⟩
  · have ⟨⟨hreset, hrep⟩, hline⟩ := hl
    refine ⟨fun hb hw => ?_, fun hb hw => ?_⟩
    · rw [exec_decodeCommandWord, cycle_next hreset hline, writeCommandWord_of_busy hb hw]
      obtain ⟨fined, ignored, recounted⟩ := settle_penalty_cases (s := s) (p := p)
        (t := s.modPort p fun u => { u with unit := { u.unit with overrun := true } }) hrep rfl 4
      exact ⟨fun hi hm hs => congrArg _ (fined hi hm hs), fun hd => congrArg _ (ignored hd),
        fun hm hs => congrArg _ (recounted hm hs)⟩
    · have written : s.writeCommandWord p (commandCode w ++ commandSlot w) = (s.answered p .badCommand).report p (.penalty 4) := by
        rw [commandCode_append_commandSlot, State.writeCommandWord, ofCode_of_undefined hw]
        exact writeUndefined_of_idle hb
      have run : exec (.undefinedCommand p (commandCode w) (commandSlot w)) s =
          .next ((s.answered p .badCommand).report p (.penalty 4)).settle := by
        rw [← written]
        exact cycle_next (f := fun t => t.writeCommandWord p _) hreset hline
      obtain ⟨fined, ignored, recounted⟩ := settle_penalty_cases (s := s) (p := p) (t := s.answered p .badCommand) hrep rfl 4
      exact ⟨fun hi hm hs => run.trans (congrArg _ (fined hi hm hs)), fun hd => run.trans (congrArg _ (ignored hd)),
        fun hm hs => run.trans (congrArg _ (recounted hm hs))⟩
  · have ⟨⟨hreset, hrep⟩, hline⟩ := hl
    have disturbs := settle_disturbance_cases (s := s) (p := p) (t := s.answered p .detached) hrep rfl
    rw [exec_command, cycle_next hreset hline, writeCommand_of_idle hb hc hr]
    refine ⟨fun hs => ?_, fun hd => ?_, fun hi hm hx => ?_⟩
    · rw [if_pos (.inl (by rw [hs]; rfl)), disturbs, if_pos hs]
    · have other : (s.healthOf p).state ≠ .rejoining := hd.elim (fun e => by rw [e]; decide) And.right
      rw [if_pos (hd.imp (fun e => by rw [e]; rfl) And.left), disturbs, if_neg other]
    · have out : (s.healthOf p).state.outside = false := by simpa [State.inside] using hi
      rw [if_neg (by simp [out, hm]), if_pos hx]
      exact congrArg _ (State.settle_nil _ hrep)

end Sys2Proof.PortHealth
end

section
namespace Sys2Proof.PortHealth
open Sys2Proof Sys2Proof.Machine Sys2Proof.Publication

/-! ### EXPEL by its target (R124, R130) -/

section Expel
variable {s : State} {p q : Port} {n : Byte}

theorem setPhase_busyWith (s : State) (p : Port) (c : Command) (n : Byte) (ph ph' : Phase) :
    (s.busyWith p c n ph).setPhase p ph' = s.busyWith p c n ph' := by
  simp [State.setPhase, State.busyWith, State.modPort, State.port]

theorem takeExpel_of_bad (h : 3 < (s.port p).arg0.toNat ∨ (s.port p).arg0.toNat = p.number) :
    takeExpel p s = s.refuse p .badArgument := by
  unfold takeExpel
  rcases h with h | h
  · rw [portOfNumber_none h]
  · rw [portOfNumber_some h]
    exact if_pos rfl

theorem takeExpel_of_mark (hq : q ≠ p) (ha : (s.port p).arg0.toNat = q.number) (hm : (s.healthOf q).mark = true) :
    takeExpel p s = s.setPhase p (.expelling q false) := by
  unfold takeExpel
  rw [portOfNumber_some ha]
  exact (if_neg hq).trans (if_pos hm)

theorem takeExpel_of_inside (hq : q ≠ p) (ha : (s.port p).arg0.toNat = q.number) (hm : (s.healthOf q).mark = false)
    (hi : s.inside q = true) :
    takeExpel p s = ((s.setPhase p (.expelling q true)).markDetaching q .expelled).waitToDetach [q] := by
  unfold takeExpel
  rw [portOfNumber_some ha]
  refine (if_neg hq).trans ((if_neg (by rw [hm]; exact Bool.false_ne_true)).trans ?_)
  rcases inside_iff.mp hi with e | e <;> rw [e]

theorem takeExpel_of_outside (hq : q ≠ p) (ha : (s.port p).arg0.toNat = q.number) (hm : (s.healthOf q).mark = false)
    (ho : (s.healthOf q).state = .rejoining ∨ (s.healthOf q).state = .detached) :
    takeExpel p s = (s.expelOutside q).post p .done := by
  unfold takeExpel
  rw [portOfNumber_some ha]
  refine (if_neg hq).trans ((if_neg (by rw [hm]; exact Bool.false_ne_true)).trans ?_)
  rcases ho with e | e <;> rw [e]

/-- EXPEL of a ready port that holds the token is taken by the Health Unit. -/
theorem exec_expel (hready : s.ready p) (ht : s.token = some p) :
    exec (.expel p n) s = .next (takeExpel p (s.busyWith p .expel n .taken)).settle :=
  (cycle_command hready (by decide)).trans (by rw [takeCommand, State.ifToken, if_pos (by exact ht)])

theorem port_busyWith_ne (hq : q ≠ p) (c : Command) (ph : Phase) : (s.busyWith p c n ph).port q = s.port q :=
  PerPort.get_set_ne _ hq _

end Expel

/-- Settles O57: the target's number, its mark and its health state. -/
theorem expelByHealthState : Obligations.ExpelByHealthState := by
  intro s p n hready ht a
  have ⟨⟨_, hrep⟩, _⟩ := hready
  have arg (ph : Phase) : ((s.busyWith p .expel n ph).port p).arg0 = (s.port p).arg0 := by rw [port_busyWith]
  refine ⟨fun bad hb => ?_, fun q hq ha => ?_⟩
  · rw [exec_expel hready ht, takeExpel_of_bad (by rw [arg]; exact bad), settle_refuse_penalised hready hb rfl]
  have target : ((s.busyWith p .expel n .taken).port p).arg0.toNat = q.number := by rw [arg]; exact ha
  refine ⟨fun hm => ?_, fun hm => ⟨fun hi => ?_, fun hs => ?_, fun hs => ?_⟩⟩
  · rw [exec_expel hready ht, takeExpel_of_mark hq target hm, setPhase_busyWith]
    exact congrArg _ (State.settle_nil _ hrep)
  · have unit : ((s.busyWith p .expel n (.expelling q true)).port q) = s.port q := port_busyWith_ne hq _ _
    rw [exec_expel hready ht, takeExpel_of_inside hq target hm hi, setPhase_busyWith, State.markDetaching]
    refine ⟨fun exempt => ?_, fun b hb hc => ?_⟩
    · rw [answerDetached_of_exempt (by
        rw [State.inHand, State.port_modHealth, unit]
        exact exempt)]
      exact congrArg _ (State.settle_nil _ hrep)
    · rw [answerDetached_of_busy (by rw [State.port_modHealth, unit]; exact hb) hc]
      exact congrArg _ (State.settle_nil _ hrep)
  · rw [exec_expel hready ht, takeExpel_of_outside hq target hm (.inl hs), State.expelOutside, if_pos (by exact hs)]
    refine congrArg _ ((congrArg State.settle ?_).trans (State.settle_nil _ hrep))
    exact post_busyWith (s.modHealth q fun h => { h with state := .detached, cause := .expelled, rejoinCount := 0, quiet := none })
      p .expel n .done
  · have stays : (s.healthOf q).state ≠ .rejoining := by rw [hs]; decide
    rw [exec_expel hready ht, takeExpel_of_outside hq target hm (.inr hs), State.expelOutside, if_neg (by exact stays),
      post_busyWith]
    exact congrArg _ (State.settle_nil _ hrep)

end Sys2Proof.PortHealth
end

section
namespace Sys2Proof.PortHealth
open Sys2Proof Sys2Proof.Machine Sys2Proof.Publication Sys2Proof.Views

/-! ### A port reset (R168, R180, R182 to R184) -/

section Reset
variable {s : State} {p : Port} {n : Byte}

theorem dropRequester_eq (r : Slot) (p : Port) :
    r.dropRequester p = { r with
      requesters := r.requesters.erase p
      deadline := if r.requesters.has p = true ∧ r.requesters.erase p = PortSet.empty then none else r.deadline } := by
  unfold Slot.dropRequester
  split
  · next hp => simp only [hp, true_and, Requests.isEmpty_iff_eq_empty]
  · next hp =>
    have same : r.requesters.erase p = r.requesters := by
      have absent : r.requesters.get p = false := by simpa [PortSet.has] using hp
      rw [PortSet.erase, ← absent, PerPort.set_get_self]
    simp [hp, same]

/-- What a port reset clears in the slot records. -/
def resetSlot (p : Port) (r : Slot) : Slot :=
  { r with unread := r.unread.erase p, missed := r.missed.erase p, requesters := r.requesters.erase p,
           deadline := if r.requesters.has p = true ∧ r.requesters.erase p = PortSet.empty then none else r.deadline }

theorem map_resetSlot (t : Table 96 Slot) (p : Port) :
    (t.map (Slot.seenBy p)).map (Slot.dropRequester p) = t.map (resetSlot p) :=
  Table.ext_get fun i => by
    rw [Table.get_map, Table.get_map, Table.get_map, dropRequester_eq]
    rfl

/-- The records of `p` reset, before the Health Unit takes its part (R184). -/
def resetRecords (s : State) (p : Port) (busy : Option Busy) : State :=
  { s with
    ports := s.ports.set p { PortUnit.reset with unit := { CommandUnit.reset with busy := busy } }
    holds := s.holds.set p none
    queue := s.queue.filter fun o => o.source != .port p
    notes := s.notes.set p { s.noteUnit p with queue := [], filters := Table.fill 8 Filter.cleared }
    slots := s.slots.map (resetSlot p)
    token := if s.token = some p then none else s.token }

theorem freeToken_eq (s : State) (p : Port) : s.freeToken p = { s with token := if s.token = some p then none else s.token } := by
  unfold State.freeToken
  split
  · rfl
  · rfl

/-- A port reset that ends the port's hold quietly. -/
theorem resetPort_of_quiet (hq : s.endsQuietly p = true) (busy : Option Busy) :
    s.resetPort p busy = (resetRecords s p busy).report p .disturbance := by
  have quiet : (s.modPort p fun _ => { PortUnit.reset with unit := { CommandUnit.reset with busy := busy } }).endsQuietly p = true := hq
  unfold State.resetPort
  dsimp only
  rw [State.resetViewAndNotes, endRetires_of_quiet quiet, if_neg Bool.false_ne_true, endHold_of_quiet quiet, freeToken_eq]
  simp [resetRecords, State.resetNotes, State.flushNotes, State.modNotes, State.noteUnit, State.mapSlots, State.withdraw,
    State.modPort, State.report, map_resetSlot]

theorem exec_low {c : Instr} {f : State → State} (hs : s.settled) (hl : s.lineLow.has p = true) (hc : exec c s = cycle p f s) :
    exec c s = .next s := hc.trans (cycle_low hs.2 hl)

end Reset

/-- Settles O53: the line high or low, and RESET_PORT in hand or not. -/
theorem portResetClearsThePort : Obligations.PortResetClearsThePort := by
  intro s p n hs cleared
  have ⟨hreset, hrep⟩ := hs
  have disturbs (t : State) (ht : t.reports = []) (he : t.health = s.health) := settle_disturbance_cases (p := p) ht he
  refine ⟨fun hl hq => ?_, fun hl hq hh => ?_, fun hl => ⟨?_, ?_, fun w => ⟨?_, ?_, fun off => ?_⟩, ?_, ?_, ?_⟩, fun hh => ⟨?_, ?_⟩,
    fun hh => ?_⟩
  · rw [Notes.exec_portReset ⟨hs, hl⟩, resetPort_of_quiet (by exact hq),
      disturbs (resetRecords { s with lineLow := s.lineLow.insert p } p none) hrep rfl]
    dsimp only [cleared]
    split <;> rfl
  · rw [Notes.exec_resetPort ⟨hs, hl⟩ hh, resetPort_of_quiet hq, disturbs (resetRecords s p _) hrep rfl]
    rfl
  · simp [State.attention, State.takesCycles, hl]
  · show execPortReset p s = _
    exact if_pos hl
  · exact exec_low hs hl (exec_decodeCommandWord s p w)
  · exact exec_low hs hl (f := fun t => t.writeEnables p w) rfl
  · exact exec_low hs hl (f := fun t => if off = 0#6 then t.writeCommandWord p w else t.writeStored p off w) rfl
  · exact exec_low hs hl (f := readResult p) rfl
  · exact exec_low hs hl (f := readTimeLow p) rfl
  · exact exec_low hs hl (f := takeNote p) rfl
  · have joined : s.writeCommand p .resetPort n = s := by
      rw [State.writeCommand, if_pos rfl, State.writeResetPort, if_pos hh]
    by_cases hl : s.lineLow.has p = true
    · exact exec_low hs hl (f := fun t => t.writeCommand p .resetPort n) rfl
    · exact (cycle_next (f := fun t => t.writeCommand p .resetPort n) hreset (by simpa using hl)).trans
        (congrArg _ (by rw [joined, State.settle_nil s hrep]))
  · obtain ⟨b, hb⟩ := State.inHand_busy hh
    refine Requests.event_unreported (f := finishResetPort p) hs ?_ rfl
    exact (if_pos hh).trans (State.post_busy hb .done)
  · exact Requests.event_unreported (f := finishResetPort p) hs (if_neg (by simp [hh])) rfl

end Sys2Proof.PortHealth
end

section
namespace Sys2Proof.PortHealth
open Sys2Proof Sys2Proof.Machine Sys2Proof.Publication

/-! ### A detachment as a list of steps (R124 to R127) -/

/-- A step of the detachment of `p`, with its reports taken. -/
def stepTaken (p : Port) (s : State) (st : DetachStep) : State := (s.detachStep p st).settle

/-- The steps left from `st` on, in their order. -/
def stepsFrom (st : DetachStep) : List DetachStep :=
  [.token, .hold, .publications, .requests, .notes, .orphan].filter fun x => stepPlace st ≤ stepPlace x

/-- The steps left from `st` on but the last. -/
def stepsBefore (st : DetachStep) : List DetachStep := (stepsFrom st).dropLast

theorem mem_stepsFrom {st x : DetachStep} : x ∈ stepsFrom st ↔ stepPlace st ≤ stepPlace x := by
  cases st <;> cases x <;> decide

theorem stepsFrom_ordered (st : DetachStep) : (stepsFrom st).Pairwise fun x y => stepPlace x < stepPlace y := by
  cases st <;> decide

theorem stepsFrom_eq (st : DetachStep) : stepsFrom st = stepsBefore st ++ [.orphan] := by cases st <;> rfl

theorem ne_orphan_of_mem_stepsBefore {st x : DetachStep} (h : x ∈ stepsBefore st) : x ≠ .orphan := by
  revert h
  cases st <;> cases x <;> decide

/-- A run to the end takes the steps left, and leaves none to be done. -/
theorem runDetach_eq (s : State) (p : Port) (st : DetachStep) :
    s.runDetach p .orphan 6 st = { (stepsFrom st).foldl (stepTaken p) s with detaching := none } := by
  cases st <;> simp [State.runDetach, stepPlace, stepAfter, stepsFrom, stepTaken]

/-- What step `x` brings about, and every later step keeps, holds after a run that takes step `x` or finds it so. -/
theorem holds_after_steps {P : State → Prop} {p : Port} {x : DetachStep} (made : ∀ u, P (stepTaken p u x))
    (kept : ∀ u y, stepPlace x < stepPlace y → P u → P (stepTaken p u y)) (st : DetachStep) (s : State)
    (h : stepPlace st ≤ stepPlace x ∨ P s) : P ((stepsFrom st).foldl (stepTaken p) s) := by
  have along (l : List DetachStep) (ordered : l.Pairwise fun x y => stepPlace x < stepPlace y) (s : State)
      (h : x ∈ l ∨ (P s ∧ ∀ y ∈ l, stepPlace x < stepPlace y)) : P (l.foldl (stepTaken p) s) := by
    induction l generalizing s with
    | nil => exact (h.resolve_left nofun).1
    | cons y l ih =>
      obtain ⟨first, rest⟩ := List.pairwise_cons.mp ordered
      refine ih rest _ ?_
      rcases h with hx | ⟨hs, later⟩
      · rcases List.mem_cons.mp hx with rfl | hx
        · exact .inr ⟨made s, first⟩
        · exact .inl hx
      · exact .inr ⟨kept s y (later y List.mem_cons_self) hs, fun z hz => later z (List.mem_cons_of_mem y hz)⟩
  refine along _ (stepsFrom_ordered st) s ?_
  by_cases hx : stepPlace st ≤ stepPlace x
  · exact .inl (mem_stepsFrom.mpr hx)
  · exact .inr ⟨h.resolve_left hx, fun y hy => by have := mem_stepsFrom.mp hy; omega⟩

/-- A reading that step `x` alone changes is changed once, where the run takes step `x`. -/
theorem reading_after_steps {α : Type} {p : Port} (f : State → α) (g : α → α) (x : DetachStep)
    (moved : ∀ u, f (stepTaken p u x) = g (f u)) (fixed : ∀ u y, y ≠ x → f (stepTaken p u y) = f u) (st : DetachStep) (s : State) :
    f ((stepsFrom st).foldl (stepTaken p) s) = if stepPlace st ≤ stepPlace x then g (f s) else f s := by
  have along (l : List DetachStep) (nodup : l.Nodup) (s : State) :
      f (l.foldl (stepTaken p) s) = if x ∈ l then g (f s) else f s := by
    induction l generalizing s with
    | nil => rfl
    | cons y l ih =>
      obtain ⟨apart, rest⟩ := List.nodup_cons.mp nodup
      rw [List.foldl_cons, ih rest]
      by_cases e : y = x
      · subst e
        rw [if_neg apart, if_pos List.mem_cons_self, moved]
      · rw [fixed s y e]
        simp [Ne.symm e]
  rw [along _ ((stepsFrom_ordered st).imp fun h e => by rw [e] at h; exact lt_irrefl _ h) s]
  simp only [mem_stepsFrom]

/-- A reading that no step changes. -/
theorem reading_kept_by_steps {α : Type} {p : Port} (f : State → α) (fixed : ∀ u y, f (stepTaken p u y) = f u) (st : DetachStep)
    (s : State) : f ((stepsFrom st).foldl (stepTaken p) s) = f s := by
  rw [reading_after_steps f id .token (fun u => fixed u _) (fun u y _ => fixed u y), id, ite_self]

/-! ### What a step can change -/

section Frames
variable (s : State) (p : Port)

theorem expelOutside_frame : s.expelOutside p = { s with health := (s.expelOutside p).health } := by
  unfold State.expelOutside
  split <;> rfl

theorem finishExpels_frame : s.finishExpels p = { s with ports := (s.finishExpels p).ports, health := (s.finishExpels p).health } := by
  refine foldl_keeps (P := fun u => u = { s with ports := u.ports, health := u.health }) (fun u q hu => ?_) _ _ rfl
  split
  · split
    · rw [State.post, State.modPort]
      split
      · rw [hu]
      · rw [expelOutside_frame, hu]
    · exact hu
  all_goals exact hu

theorem orphaned_frame : s.orphaned p =
    { s with slots := (s.orphaned p).slots, notes := (s.orphaned p).notes, reports := (s.orphaned p).reports,
             freeCount := (s.orphaned p).freeCount } := by
  refine foldl_keeps (P := fun u => u = { s with slots := u.slots, notes := u.notes, reports := u.reports, freeCount := u.freeCount })
    (fun u k hu => ?_) _ _ ?_
  · rw [State.orphan, State.tell_frame, State.modSlot]
    rw [hu]
  · rw [State.shuffle_frame]

theorem detachRequests_frame : s.detachRequests p =
    { s with lostOwners := s.lostOwners.insert p, slots := (s.detachRequests p).slots, notes := (s.detachRequests p).notes,
             reports := (s.detachRequests p).reports, freeCount := (s.detachRequests p).freeCount } := by
  refine foldl_keeps (P := fun u => u = { s with lostOwners := s.lostOwners.insert p, slots := u.slots, notes := u.notes,
                                                 reports := u.reports, freeCount := u.freeCount }) (fun u k hu => ?_) _ _ ?_
  · rw [State.timeOutRequesters_frame]
    rw [hu]
  · rw [State.shuffle_frame]
    rfl

/-- The fields that one step alone changes, and those that no step changes. -/
theorem stepTaken_frame (st : DetachStep) :
    let t := stepTaken p s st
    t = { s with
          token := if st = .token ∧ s.token = some p then none else s.token
          holds := if st = .hold then s.holds.set p none else s.holds
          queue := if st = .publications then s.queue.filter fun o => o.source != .port p else s.queue
          lostOwners := if st = .requests then s.lostOwners.insert p else s.lostOwners
          ports := t.ports, slots := t.slots, due := t.due, ripe := t.ripe, flight := t.flight, exchange := t.exchange
          freezeMark := t.freezeMark, task := t.task, watch := t.watch, notes := t.notes, health := t.health
          detachQueue := t.detachQueue, reports := t.reports, freeCount := t.freeCount } := by
  dsimp only
  unfold stepTaken
  rw [State.settle_frame]
  cases st with
  | token =>
    simp only [State.detachStep, freeToken_eq]
    simp
  | hold =>
    simp only [State.detachStep]
    rw [State.endHold_frame]
    simp
  | publications => simp [State.detachStep, State.discardPublications, State.withdraw]
  | requests =>
    simp only [State.detachStep]
    rw [detachRequests_frame]
    simp
  | notes => simp [State.detachStep, State.detachNotes, State.flushNotes, State.modNotes, State.mapSlots]
  | orphan =>
    simp only [State.detachStep, State.detachOrphan_eq]
    rw [finishExpels_frame, State.modHealth, orphaned_frame]
    simp

end Frames
end Sys2Proof.PortHealth
end

section
namespace Sys2Proof.PortHealth
open Sys2Proof Sys2Proof.Machine Sys2Proof.Publication

/-! ### The slot records and the notes after a step (R48, R125 to R127) -/

section Records
variable {s : State} {p q : Port} {k : SlotIx}

theorem mem_allSlots (k : SlotIx) : k ∈ allSlots := List.mem_finRange k

/-- A visit to the slots of a list that changes each one's record by `g`. -/
theorem slot_foldl {f : State → SlotIx → State} {g : Slot → Slot}
    (hf : ∀ u j k, (f u j).slot k = if k = j then g (u.slot k) else u.slot k) (hg : ∀ r, g (g r) = g r) (l : List SlotIx) (u : State)
    (k : SlotIx) : (l.foldl f u).slot k = if k ∈ l then g (u.slot k) else u.slot k := by
  induction l generalizing u with
  | nil => rfl
  | cons j l ih =>
    rw [List.foldl_cons, ih, hf]
    by_cases e : k = j
    · simp [e, hg]
    · simp [e]

theorem slot_tell (ps : PortSet) (r : Reason) (j : SlotIx) : (s.tell ps r j).slot k = s.slot k := by
  rw [State.tell_frame]
  rfl

theorem slot_shuffle {α : Type} (l : List α) : (s.shuffle l).2.slot k = s.slot k := by
  rw [State.shuffle_frame]
  rfl

/-- Step 4 on one record: the port drops out, and the requesters that are left on a slot of its own are timed out. -/
theorem slot_detachRequests (s : State) (p : Port) (k : SlotIx) :
    let r := (s.slot k).dropRequester p
    (s.detachRequests p).slot k =
      if r.config.owner = p ∧ r.state ≠ .unused ∧ r.requesters.isEmpty = false then r.endRound else r := by
  have timedOut (u : State) (j k : SlotIx) :
      (u.timeOutRequesters j).slot k = if k = j then (u.slot k).endRound else u.slot k := by
    rw [State.timeOutRequesters, State.slot_modSlot, slot_tell, slot_tell]
    split
    · next e => rw [e]
    · rfl
  unfold State.detachRequests
  dsimp only
  rw [slot_foldl timedOut (fun _ => rfl), slot_shuffle]
  simp only [(State.shuffle_perm _ _).mem_iff, State.askedOf, List.mem_filter]
  have dropped : State.slot { s.mapSlots (Slot.dropRequester p) with lostOwners := s.lostOwners.insert p } k =
      (s.slot k).dropRequester p := State.slot_mapSlots s k _
  rw [dropped]
  simp [mem_allSlots, and_assoc]

/-- Step 5 on one record. -/
theorem slot_detachNotes (s : State) (p : Port) (k : SlotIx) : (s.detachNotes p).slot k = (s.slot k).seenBy p :=
  State.slot_mapSlots (s.modNotes p _) k _

/-- Step 6 on one record. -/
theorem slot_orphaned (s : State) (p : Port) (k : SlotIx) :
    (s.orphaned p).slot k =
      if (s.slot k).config.owner = p ∧ (s.slot k).state ≠ .unused then { s.slot k with orphaned := true } else s.slot k := by
  have told (u : State) (j k : SlotIx) : (u.orphan j).slot k = if k = j then { u.slot k with orphaned := true } else u.slot k := by
    rw [State.orphan, slot_tell, State.slot_modSlot]
    split
    · next e => rw [e]
    · rfl
  unfold State.orphaned
  dsimp only
  rw [slot_foldl told (g := fun r => { r with orphaned := true }) (fun _ => rfl), slot_shuffle]
  simp [(State.shuffle_perm _ _).mem_iff, State.ownedBy, mem_allSlots]

theorem slot_detachOrphan (s : State) (p : Port) (k : SlotIx) : (s.detachOrphan p).slot k = (s.orphaned p).slot k := by
  rw [State.detachOrphan_eq, finishExpels_frame]
  rfl

theorem slot_stepTaken (s : State) (p : Port) (st : DetachStep) (k : SlotIx) :
    (stepTaken p s st).slot k = (s.detachStep p st).slot k := by
  rw [stepTaken, State.settle_frame]
  rfl

theorem noteUnit_stepTaken (s : State) (p q : Port) (st : DetachStep) :
    (stepTaken p s st).noteUnit q = (s.detachStep p st).noteUnit q := by
  rw [stepTaken, State.settle_frame]
  rfl

/-- A requester that drops out changes the requester set and the deadline alone. -/
theorem dropRequester_frame (r : Slot) (p : Port) :
    r.dropRequester p = { r with requesters := (r.dropRequester p).requesters, deadline := (r.dropRequester p).deadline } := by
  unfold Slot.dropRequester
  split <;> rfl

/-- The steps after the third leave the due and the pending values. -/
theorem parked_after_publications (s : State) (p : Port) {st : DetachStep} (h : stepPlace .publications < stepPlace st) :
    (stepTaken p s st).due = s.due ∧ ∀ k, ((stepTaken p s st).slot k).parked = (s.slot k).parked := by
  have due : (stepTaken p s st).due = (s.detachStep p st).due := by
    rw [stepTaken, State.settle_frame]
  rw [due]
  simp only [slot_stepTaken]
  cases st with
  | requests =>
    refine ⟨by rw [State.detachStep, detachRequests_frame], fun k => ?_⟩
    rw [State.detachStep, slot_detachRequests, dropRequester_frame]
    split <;> rfl
  | notes => exact ⟨rfl, fun k => by rw [State.detachStep, slot_detachNotes, Slot.seenBy]⟩
  | orphan =>
    refine ⟨?_, fun k => ?_⟩
    · rw [State.detachStep, State.detachOrphan_eq, finishExpels_frame]
      show (s.orphaned p).due = s.due
      rw [orphaned_frame]
    · rw [State.detachStep, slot_detachOrphan, slot_orphaned]
      split <;> rfl
  | _ => cases (by decide : ¬stepPlace .publications < stepPlace _) h

/-- The steps after the fourth leave the configuration, the state and the requesters of every slot. -/
theorem requesters_after_requests (s : State) (p : Port) {st : DetachStep} (h : stepPlace .requests < stepPlace st) (k : SlotIx) :
    ((stepTaken p s st).slot k).config = (s.slot k).config ∧ ((stepTaken p s st).slot k).state = (s.slot k).state ∧
      ((stepTaken p s st).slot k).requesters = (s.slot k).requesters := by
  rw [slot_stepTaken]
  cases st with
  | notes => rw [State.detachStep, slot_detachNotes]; exact ⟨rfl, rfl, rfl⟩
  | orphan =>
    rw [State.detachStep, slot_detachOrphan, slot_orphaned]
    split <;> exact ⟨rfl, rfl, rfl⟩
  | _ => cases (by decide : ¬stepPlace .requests < stepPlace _) h

/-! The notes. -/

theorem noteUnit_shuffle {α : Type} (l : List α) : (s.shuffle l).2.noteUnit q = s.noteUnit q := by
  rw [State.shuffle_frame]
  rfl

/-- A CLOSED port takes no note. -/
theorem noteUnit_tell_of_closed (h : (s.noteUnit q).delivery = .closed) (ps : PortSet) (r : Reason) (k : SlotIx) :
    (s.tell ps r k).noteUnit q = s.noteUnit q := by
  refine foldl_keeps (P := fun u => u.noteUnit q = s.noteUnit q) (fun u p hu => ?_) _ _ rfl
  split
  · by_cases e : q = p
    · subst e
      rw [Notes.appendNote_of_closed (by rw [hu]; exact h), hu]
    · rw [State.noteUnit_appendNote_ne u e, hu]
  · exact hu

theorem noteUnit_detachOrphan_of_closed (h : (s.noteUnit q).delivery = .closed) : (s.detachOrphan p).noteUnit q = s.noteUnit q := by
  rw [State.detachOrphan_eq, finishExpels_frame]
  refine foldl_keeps (P := fun u => u.noteUnit q = s.noteUnit q) (fun u k hu => ?_) _ _ (noteUnit_shuffle _)
  rw [State.orphan, noteUnit_tell_of_closed (by show (u.noteUnit q).delivery = _; rw [hu]; exact h)]
  exact hu

/-- The filters of a port. -/
abbrev filtersOf (q : Port) (s : State) : Table 8 Filter := (s.noteUnit q).filters

theorem filtersOf_tell (ps : PortSet) (r : Reason) (k : SlotIx) : filtersOf q (s.tell ps r k) = filtersOf q s := by
  refine foldl_keeps (P := fun u => filtersOf q u = filtersOf q s) (fun u p hu => ?_) _ _ rfl
  split
  · exact (u.appendNote_keeps p q _).1.trans hu
  · exact hu

theorem filtersOf_foldl {f : State → SlotIx → State} {u : State} {l : List SlotIx}
    (hf : ∀ u k, filtersOf q (f u k) = filtersOf q u) (hu : filtersOf q u = filtersOf q s) :
    filtersOf q (l.foldl f u) = filtersOf q s :=
  foldl_keeps (P := fun u => filtersOf q u = filtersOf q s) (fun u k hu => (hf u k).trans hu) l u hu

theorem filtersOf_endHold : filtersOf q (s.endHold p) = filtersOf q s := by
  have committed (u : State) (k : SlotIx) : filtersOf q (u.commitOnEmpty k) = filtersOf q u := by
    rw [State.commitOnEmpty_frame]
    rfl
  have completed (u : State) (k : SlotIx) : filtersOf q (u.completeRetirement k) = filtersOf q u := by
    rw [State.completeRetirement, State.viewsGone_frame]
    refine Eq.trans ?_ (filtersOf_tell (s := u) (u.subscribers k) .retired k)
    simp [filtersOf, State.sealNotes, State.noteUnit, State.modSlot]
  unfold State.endHold State.holdLeft State.testRetirement
  split
  · rfl
  · split
    · split
      · rw [completed, committed]; rfl
      · rw [committed]; rfl
    · rfl

theorem filtersOf_stepTaken (s : State) (p q : Port) (st : DetachStep) : filtersOf q (stepTaken p s st) = filtersOf q s := by
  rw [filtersOf, noteUnit_stepTaken]
  cases st with
  | token => rw [State.detachStep, freeToken_eq]; rfl
  | hold => exact filtersOf_endHold
  | publications => rfl
  | requests => exact filtersOf_foldl (fun _ _ => filtersOf_tell _ _ _) (congrArg NoteUnit.filters (noteUnit_shuffle _))
  | notes =>
    simp only [State.detachStep, State.detachNotes, State.noteUnit_modNotes]
    split
    · next e =>
      subst e
      simp [State.flushNotes]
    · next e => simp [State.flushNotes, State.noteUnit_modNotes, e]
  | orphan =>
    rw [State.detachStep, State.detachOrphan_eq, finishExpels_frame]
    exact filtersOf_foldl (fun _ _ => filtersOf_tell _ _ _) (congrArg NoteUnit.filters (noteUnit_shuffle _))

end Records
end Sys2Proof.PortHealth
end

section
namespace Sys2Proof.PortHealth
open Sys2Proof Sys2Proof.Machine Sys2Proof.Publication

/-! ### What the steps leave of a marked port's record and of an EXPEL that waits (R124, R130) -/

/-- What the taking of each report keeps is kept by the taking of all. -/
theorem settle_induction {P : State → Prop} {s : State} (start : P s)
    (other : ∀ u R D n, P u → P { u with reports := R, detachQueue := D, freeCount := n })
    (taken : ∀ u r, P u → P (u.takeReport r)) : P s.settle := by
  have all : P (Port.all.foldl (fun u p => u.takeReportsOf s.reports p) { s with reports := [] }) := by
    refine foldl_keeps (P := P) (fun u p hu => ?_) _ _ (other s [] s.detachQueue s.freeCount start)
    unfold State.takeReportsOf
    dsimp only
    split
    · exact foldl_keeps (P := P) taken _ _ hu
    · refine foldl_keeps (P := P) taken _ _ ?_
      rw [State.pick_frame]
      exact other u u.reports u.detachQueue _ hu
  unfold State.settle
  dsimp only
  rw [State.Judges.waitToDetach_frame]
  exact other _ _ _ _ all

/-- From `b` to `s` a mark that is set stays, with its cause and the policy, and an EXPEL that waits for the end of a detachment waits
on, but where its issuer is marked. -/
def Steady (b s : State) : Prop :=
  (∀ q, (b.healthOf q).mark = true → (s.healthOf q).mark = true ∧ (s.healthOf q).cause = (b.healthOf q).cause ∧
      (s.healthOf q).autoRejoin = (b.healthOf q).autoRejoin) ∧
    ∀ q c target began, (b.port q).unit.busy = some c → c.phase = .expelling target began →
      (s.healthOf q).mark = true ∨ (s.port q).unit.busy = some c

namespace Steady
variable {b s t : State}

theorem refl (s : State) : Steady s s := ⟨fun _ h => ⟨h, rfl, rfl⟩, fun _ _ _ _ h _ => .inr h⟩

theorem trans (h : Steady b s) (g : Steady s t) : Steady b t := by
  obtain ⟨marks, waits⟩ := h
  obtain ⟨marks', waits'⟩ := g
  refine ⟨fun q hq => ?_, fun q c target began hc hp => ?_⟩
  · obtain ⟨mark, cause, policy⟩ := marks q hq
    obtain ⟨mark', cause', policy'⟩ := marks' q mark
    exact ⟨mark', cause'.trans cause, policy'.trans policy⟩
  · rcases waits q c target began hc hp with mark | busy
    · exact .inl (marks' q mark).1
    · exact waits' q c target began busy hp

theorem ite {c : Prop} [Decidable c] (ht : c → Steady b s) (he : ¬c → Steady b t) : Steady b (if c then s else t) := by
  split
  · next hc => exact ht hc
  · next hc => exact he hc

section Operations
variable (h : Steady b s)
include h

theorem foldl {α : Type} {f : State → α → State} (hf : ∀ u a, Steady b u → Steady b (f u a)) (l : List α) :
    Steady b (l.foldl f s) := foldl_keeps hf l s h

/-- One port's unit changes, and an EXPEL that waits stays BUSY. -/
theorem modPort (p : Port) {f : PortUnit → PortUnit}
    (hf : ∀ c target began, (s.port p).unit.busy = some c → c.phase = .expelling target began → (f (s.port p)).unit.busy = some c) :
    Steady b (s.modPort p f) := by
  refine h.trans ⟨fun _ hq => ⟨hq, rfl, rfl⟩, fun q c target began hc hp => .inr ?_⟩
  rw [State.port_modPort]
  split
  · next e => subst e; exact hf c target began hc hp
  · exact hc

theorem completeAll (c : Command) : Steady b (s.completeAll c) := by
  refine h.foldl (fun u p hu => ite (fun hand => hu.modPort p fun d _ _ hd hp => ?_) fun _ => hu) _
  simp [State.inHand, hd, hp] at hand

theorem viewsGone (k : SlotIx) : Steady b (s.viewsGone k) := by
  refine h.foldl (fun u p hu => ite (fun waits => hu.modPort p fun d _ _ hd hp => ?_) fun _ => hu) _
  simp [State.phaseOf, hd, hp] at waits

/-- One record changes, and its mark, cause and policy stay. -/
theorem modHealth (p : Port) {f : Health → Health} (hf : ∀ g, (f g).mark = g.mark ∧ (f g).cause = g.cause ∧
    (f g).autoRejoin = g.autoRejoin) : Steady b (s.modHealth p f) := by
  refine h.trans ⟨fun q hq => ?_, fun _ _ _ _ hc _ => .inr hc⟩
  rw [State.healthOf_modHealth]
  split
  · next e =>
    subst e
    obtain ⟨mark, cause, policy⟩ := hf (s.healthOf q)
    exact ⟨mark.trans hq, cause, policy⟩
  · exact ⟨hq, rfl, rfl⟩

theorem takeDisturbance (p : Port) : Steady b (s.takeDisturbance p) := ite (fun _ => h.modHealth p fun _ => ⟨rfl, rfl, rfl⟩) fun _ => h

omit h in
theorem port_answerDetached_ne {p q : Port} (hq : q ≠ p) : (s.answerDetached p).port q = s.port q := by
  unfold State.answerDetached
  split
  · split
    · rfl
    · rw [State.post, State.port_modPort, if_neg hq]
  · rfl

/-- A port that is not marked is marked. -/
theorem markDetaching {p : Port} (hm : (s.healthOf p).mark = false) (cause : DetachCause) : Steady b (s.markDetaching p cause) := by
  refine h.trans ⟨fun q hq => ?_, fun q c _ _ hc _ => ?_⟩
  all_goals
    rw [State.Judges.healthOf_markDetaching]
    split
  · next e => subst e; cases hm.symm.trans hq
  · exact ⟨hq, rfl, rfl⟩
  · exact .inl rfl
  · next e => exact .inr (by rw [State.markDetaching, port_answerDetached_ne e]; exact hc)

theorem takePenalty (p : Port) (n : Nat) : Steady b (s.takePenalty p n) := by
  unfold State.takePenalty
  dsimp only
  split
  · exact h
  · next hm =>
    have inside := ite (c := (s.healthOf p).score + n ≤ Config.scoreMax)
      (fun _ => h.modHealth p (f := fun x => x.raised ((s.healthOf p).score + n)) fun _ => ⟨rfl, rfl, rfl⟩) fun _ =>
      h.markDetaching (by simpa using hm) .score
    split
    · exact inside
    · exact inside
    · exact h
    · exact h.takeDisturbance p

theorem takeReport (r : Report) : Steady b (s.takeReport r) := by
  unfold State.takeReport
  split
  · exact h.takePenalty _ _
  · exact ite (fun _ => h) fun _ => h.modHealth _ fun _ => ⟨rfl, rfl, rfl⟩
  · exact h.takeDisturbance _

theorem settle : Steady b s.settle := settle_induction h (fun _ _ _ _ hu => hu) fun _ r hu => hu.takeReport r

/-! The end of a hold. -/

theorem ripen (k : SlotIx) : Steady b (s.ripen k) := by
  rw [State.ripen_frame]
  exact h

theorem becomeFrozen : Steady b s.becomeFrozen := by
  have due : Steady b { s with exchange := .frozen, freezeMark := false, task := none }.dueToRipe := by
    rw [State.dueToRipe_frame]
    exact h
  exact ((due.completeAll .freeze).completeAll .step).completeAll .resume

theorem callFreeze : Steady b s.callFreeze := by
  unfold State.callFreeze
  split
  · exact ite (fun _ => h) fun _ => h.becomeFrozen
  · dsimp only
    split
    · exact ite (fun _ => h) fun _ => becomeFrozen (s := { s with freezeMark := true }) h
    all_goals exact h
  all_goals exact h

theorem commitOnEmpty (k : SlotIx) : Steady b (s.commitOnEmpty k) := by
  unfold State.commitOnEmpty
  split
  · exact h
  · next o _ =>
    split
    · refine ite (fun _ => h) fun _ => ?_
      rcases s.tryLanding_cases o true (fun t => t.setParked k none) (fun t => (t.setParked k (some o.marked)).ripen k)
        with ⟨-, e⟩ | ⟨-, e⟩ | ⟨-, e⟩ <;> rw [e, State.recordLanding_frame]
      · exact h
      · exact callFreeze (b := b) h
      · exact (ripen (s := State.setParked { s with watch := _ } k _) h k).becomeFrozen
    · exact h
    · exact h.ripen k
    · exact h.ripen k
    · exact h

theorem endHold (p : Port) : Steady b (s.endHold p) := by
  have completed (u : State) (k : SlotIx) (hu : Steady b u) : Steady b (u.completeRetirement k) := by
    rw [State.completeRetirement, State.tell_frame]
    exact viewsGone (s := (State.sealNotes { u with notes := _, reports := _ } k).modSlot k fun _ => Slot.cleared) hu k
  unfold State.endHold State.holdLeft State.testRetirement
  split
  · exact h
  · next o _ =>
    have committed : Steady b ((s.setHold p none).commitOnEmpty o.slot) := commitOnEmpty (s := s.setHold p none) h o.slot
    exact ite (fun _ => ite (fun _ => completed _ _ committed) fun _ => committed) fun _ => h

theorem orphaned (p : Port) : Steady b (s.orphaned p) := by
  rw [orphaned_frame]
  exact h

theorem stepTaken {st : DetachStep} (p : Port) (hst : st ≠ .orphan) : Steady b (stepTaken p s st) := by
  refine settle ?_
  cases st with
  | token => exact ite (fun _ => h) fun _ => h
  | hold => exact h.endHold p
  | publications => exact h
  | requests => rw [State.detachStep, detachRequests_frame]; exact h
  | notes => exact h
  | orphan => exact absurd rfl hst

end Operations
end Steady

/-- The steps before the last bring no port into the wait of an EXPEL, and end none. -/
theorem steady_stepsBefore (s : State) (p : Port) (st : DetachStep) :
    Steady s ((stepsBefore st).foldl (stepTaken p) s) ∧ State.NoGain noPort s ((stepsBefore st).foldl (stepTaken p) s) := by
  have along (l : List DetachStep) (hl : ∀ x ∈ l, x ≠ .orphan) (u : State) (hu : Steady s u ∧ State.NoGain noPort s u) :
      Steady s (l.foldl (stepTaken p) u) ∧ State.NoGain noPort s (l.foldl (stepTaken p) u) := by
    induction l generalizing u with
    | nil => exact hu
    | cons x l ih =>
      obtain ⟨steady, none⟩ := hu
      have hx := hl x List.mem_cons_self
      exact ih (fun y hy => hl y (List.mem_cons_of_mem x hy)) _ ⟨steady.stepTaken p hx, (none.detachStep p hx).settle⟩
  exact along _ (fun x hx => ne_orphan_of_mem_stepsBefore hx) s ⟨.refl s, .refl s⟩

/-- A command that waits for the end of a detachment has waited before. -/
theorem phaseOf_of_noGain {b s : State} (h : State.NoGain noPort b s) {q target : Port} {began : Bool}
    (hq : s.phaseOf q = some (.expelling target began)) : b.phaseOf q = some (.expelling target began) := by
  obtain ⟨-, -, -, commands, -⟩ := h
  obtain ⟨c, hc, phase⟩ := Option.map_eq_some_iff.mp hq
  obtain ⟨d, hd, -, same | ⟨-, gone⟩ | no, -⟩ := commands q c hc
  · simp [State.phaseOf, hd, ← same, phase]
  · cases phase.symm.trans gone
  · exact no.elim

end Sys2Proof.PortHealth
end

section
namespace Sys2Proof.PortHealth
open Sys2Proof Sys2Proof.Machine Sys2Proof.Publication

/-! ### The EXPELs at the end of a detachment (R127, R130) -/

/-- The command of `q` has been finished with DONE. -/
def FinishedDone (s : State) (q : Port) : Prop :=
  (s.port q).unit.busy = none ∧ (s.port q).unit.result = .done ∧ (s.port q).unit.done = true

/-- The record of a port that is expelled outside the exchange. -/
def sentBack (h : Health) : Health :=
  if h.state = .rejoining then { h with state := .detached, cause := .expelled, rejoinCount := 0, quiet := none } else h

/-- What the end of the detachment of `p` means for the command of `q`. -/
def finishExpel (p : Port) (s : State) (q : Port) : State :=
  match s.phaseOf q with
  | some (.expelling target began) => if target = p then (if began then s else s.expelOutside p).post q .done else s
  | some .taken | some .afterRestart | some (.behindLanding _) | some .slotGone | none => s

section Expels
variable {s : State} {p q r : Port} {began : Bool}

theorem finishExpels_eq (s : State) (p : Port) : s.finishExpels p = Port.all.foldl (finishExpel p) s := rfl

theorem finishExpel_of_waiting (h : s.phaseOf q = some (.expelling p began)) :
    finishExpel p s q = (if began then s else s.expelOutside p).post q .done := by
  simp [finishExpel, h]

theorem finishExpel_of_not_waiting (h : ∀ began, s.phaseOf q ≠ some (.expelling p began)) : finishExpel p s q = s := by
  unfold finishExpel
  split
  · next e => exact if_neg fun ht => h _ (by rw [e, ht])
  all_goals rfl

theorem sentBack_sentBack (h : Health) : sentBack (sentBack h) = sentBack h := by
  unfold sentBack
  split <;> simp_all

theorem healthOf_expelOutside (s : State) (p : Port) : (s.expelOutside p).healthOf p = sentBack (s.healthOf p) := by
  unfold State.expelOutside sentBack
  split
  · simp
  · rfl

theorem healthOf_expelOutside_ne (h : q ≠ p) : (s.expelOutside p).healthOf q = s.healthOf q := by
  unfold State.expelOutside
  split
  · rw [State.healthOf_modHealth, if_neg h]
  · rfl

/-- A command other than `q`'s is left. -/
theorem port_finishExpel_ne (h : r ≠ q) : (finishExpel p s q).port r = s.port r := by
  by_cases hw : ∃ began, s.phaseOf q = some (.expelling p began)
  · obtain ⟨began, e⟩ := hw
    rw [finishExpel_of_waiting e, State.post, State.port_modPort, if_neg h]
    cases began
    · exact congrArg (fun x : PerPort PortUnit => x.get r) (Notes.ports_expelOutside s p)
    · rfl
  · rw [finishExpel_of_not_waiting fun began e => hw ⟨began, e⟩]

theorem phaseOf_finishExpel_ne (h : r ≠ q) : (finishExpel p s q).phaseOf r = s.phaseOf r := by
  rw [State.phaseOf, port_finishExpel_ne h, State.phaseOf]

theorem finishedDone_finishExpel (h : s.phaseOf q = some (.expelling p began)) : FinishedDone (finishExpel p s q) q := by
  obtain ⟨c, hc, -⟩ := Option.map_eq_some_iff.mp h
  have busy : ((if began then s else s.expelOutside p).port q).unit.busy = some c := by
    cases began
    · exact (congrArg (fun x : PerPort PortUnit => (x.get q).unit.busy) (Notes.ports_expelOutside s p)).trans hc
    · exact hc
  rw [finishExpel_of_waiting h, FinishedDone, State.post, State.port_modPort, if_pos rfl, busy]
  exact ⟨rfl, rfl, rfl⟩

theorem phaseOf_of_busy (h : (s.port q).unit.busy = none) : s.phaseOf q = none := by simp [State.phaseOf, h]

/-- A command that waits for the end of the detachment is finished with DONE. -/
theorem finishedDone_finishExpels (h : s.phaseOf q = some (.expelling p began)) : FinishedDone (s.finishExpels p) q := by
  have along (l : List Port) (u : State) (hu : FinishedDone u q ∨ (q ∈ l ∧ u.phaseOf q = some (.expelling p began))) :
      FinishedDone (l.foldl (finishExpel p) u) q := by
    induction l generalizing u with
    | nil => exact hu.resolve_right fun ⟨no, _⟩ => nomatch no
    | cons r l ih =>
      refine ih _ ?_
      by_cases e : q = r
      · subst e
        rcases hu with done | ⟨-, waits⟩
        · have ⟨idle, _, _⟩ := done
          rw [finishExpel_of_not_waiting fun _ e => by rw [phaseOf_of_busy idle] at e; cases e]
          exact .inl done
        · exact .inl (finishedDone_finishExpel waits)
      · rw [FinishedDone, port_finishExpel_ne e, phaseOf_finishExpel_ne e]
        exact hu.imp_right fun ⟨mem, waits⟩ => ⟨(List.mem_cons.mp mem).resolve_left e, waits⟩
  rw [finishExpels_eq]
  exact along _ s (.inr ⟨Port.mem_all q, h⟩)

theorem healthOf_finishExpel (s : State) (p q : Port) :
    (finishExpel p s q).healthOf p = if s.phaseOf q = some (.expelling p false) then sentBack (s.healthOf p) else s.healthOf p := by
  by_cases hw : ∃ began, s.phaseOf q = some (.expelling p began)
  · obtain ⟨began, e⟩ := hw
    rw [finishExpel_of_waiting e, e]
    cases began
    · exact (healthOf_expelOutside s p).trans (if_pos rfl).symm
    · exact (if_neg (by simp)).symm
  · rw [finishExpel_of_not_waiting fun began e => hw ⟨began, e⟩, if_neg fun e => hw ⟨_, e⟩]

theorem healthOf_finishExpels_ne (h : q ≠ p) : (s.finishExpels p).healthOf q = s.healthOf q := by
  refine foldl_keeps (P := fun u => u.healthOf q = s.healthOf q) (fun u r hu => ?_) _ _ rfl
  split
  · split
    · split
      · exact hu
      · exact (healthOf_expelOutside_ne h).trans hu
    · exact hu
  all_goals exact hu

/-- With no EXPEL that waits for it the record of the port is left. -/
theorem healthOf_finishExpels_of_none (h : ∀ q, s.phaseOf q ≠ some (.expelling p false)) :
    (s.finishExpels p).healthOf p = s.healthOf p := by
  have ⟨_, same⟩ : (∀ q, (s.finishExpels p).phaseOf q ≠ some (.expelling p false)) ∧
      (s.finishExpels p).healthOf p = s.healthOf p := by
    refine foldl_keeps (P := fun u => (∀ q, u.phaseOf q ≠ some (.expelling p false)) ∧ u.healthOf p = s.healthOf p)
      (f := finishExpel p) (fun u r ⟨free, same⟩ => ⟨fun q => ?_, ?_⟩) _ _ ⟨h, rfl⟩
    · by_cases e : q = r
      · subst e
        by_cases hw : ∃ began, u.phaseOf q = some (.expelling p began)
        · obtain ⟨began, e⟩ := hw
          obtain ⟨idle, -⟩ := finishedDone_finishExpel e
          rw [phaseOf_of_busy idle]
          nofun
        · rw [finishExpel_of_not_waiting fun began e => hw ⟨began, e⟩]
          exact free q
      · rw [phaseOf_finishExpel_ne e]
        exact free q
    · rw [healthOf_finishExpel, if_neg (free r), same]
  exact same

/-- An EXPEL that waits sends the port back. -/
theorem healthOf_finishExpels_of_waiting (h : s.phaseOf q = some (.expelling p false)) :
    (s.finishExpels p).healthOf p = sentBack (s.healthOf p) := by
  have along (l : List Port) (u : State) (hu : u.healthOf p = sentBack (s.healthOf p) ∨
      (u.healthOf p = s.healthOf p ∧ q ∈ l ∧ u.phaseOf q = some (.expelling p false))) :
      (l.foldl (finishExpel p) u).healthOf p = sentBack (s.healthOf p) := by
    induction l generalizing u with
    | nil => exact hu.resolve_right fun ⟨_, no, _⟩ => nomatch no
    | cons r l ih =>
      refine ih _ ?_
      rw [healthOf_finishExpel]
      rcases hu with back | ⟨same, mem, waits⟩
      · left
        rw [back, sentBack_sentBack, ite_self]
      · by_cases e : q = r
        · subst e
          left
          rw [if_pos waits, same]
        · rw [phaseOf_finishExpel_ne e, same]
          split
          · exact .inl rfl
          · exact .inr ⟨rfl, (List.mem_cons.mp mem).resolve_left e, waits⟩
  rw [finishExpels_eq]
  exact along _ s (.inr ⟨rfl, Port.mem_all q, h⟩)

end Expels

/-! ### The reports of the last step -/

section Reports
variable {s : State} {p q : Port}

/-- What the taking of one report comes to: nothing, a new record for its port, or the beginning of a detachment. -/
theorem takeReport_cases (s : State) (r : Report) :
    s.takeReport r = s ∨ (∃ f, s.takeReport r = s.modHealth r.port f) ∨ s.takeReport r = s.markDetaching r.port .score := by
  have disturbed : s.takeDisturbance r.port = s ∨ ∃ f, s.takeDisturbance r.port = s.modHealth r.port f := by
    unfold State.takeDisturbance
    split
    · exact .inr ⟨_, rfl⟩
    · exact .inl rfl
  have either : s.takeDisturbance r.port = s ∨ (∃ f, s.takeDisturbance r.port = s.modHealth r.port f) ∨
      s.takeDisturbance r.port = s.markDetaching r.port .score := disturbed.imp_right .inl
  unfold State.takeReport
  split
  · next n _ =>
    unfold State.takePenalty
    dsimp only
    split
    · exact .inl rfl
    · split
      · split
        · exact .inr (.inl ⟨_, rfl⟩)
        · exact .inr (.inr rfl)
      · split
        · exact .inr (.inl ⟨_, rfl⟩)
        · exact .inr (.inr rfl)
      · exact .inl rfl
      · exact either
  · unfold State.takeCredit
    dsimp only
    split
    · exact .inl rfl
    · exact .inr (.inl ⟨_, rfl⟩)
  · exact either

/-- A report for another port leaves the record. -/
theorem healthOf_takeReport_ne {r : Report} (h : p ≠ r.port) : (s.takeReport r).healthOf p = s.healthOf p := by
  rcases takeReport_cases s r with e | ⟨f, e⟩ | e <;> rw [e]
  · rw [State.healthOf_modHealth, if_neg h]
  · rw [State.Judges.healthOf_markDetaching, if_neg h]

/-- An IDLE command unit has nothing to answer. -/
theorem port_takeReport_of_idle {r : Report} (h : (s.port q).unit.busy = none) : (s.takeReport r).port q = s.port q := by
  rcases takeReport_cases s r with e | ⟨f, e⟩ | e <;> rw [e]
  · rfl
  · by_cases e : q = r.port
    · subst e
      rw [State.markDetaching, answerDetached_of_exempt (s := s.modHealth _ _) (.inl (by exact h))]
      rfl
    · exact Steady.port_answerDetached_ne e

theorem finishedDone_settle (h : FinishedDone s q) : FinishedDone s.settle q := by
  refine settle_induction (P := (FinishedDone · q)) h (fun _ _ _ _ hu => hu) fun u r hu => ?_
  have ⟨idle, _, _⟩ := hu
  rw [FinishedDone, port_takeReport_of_idle idle]
  exact hu

/-- A record that no report moves at the time `now`: of a DETACHED port, or of one that has just become REJOINING. -/
def Still (h : Health) (now : Time) : Prop :=
  h.mark = false ∧ (h.state = .detached ∨ (h.state = .rejoining ∧ h.rejoinCount = 0 ∧ h.quiet = some (now + Config.quietSpan)))

theorem healthOf_takeDisturbance_of_still (h : Still (s.healthOf p) s.time) (q : Port) :
    (s.takeDisturbance q).healthOf p = s.healthOf p := by
  unfold State.takeDisturbance
  split
  · next e =>
    rw [State.healthOf_modHealth]
    split
    · next hq =>
      subst hq
      obtain ⟨-, out | ⟨-, count, quiet⟩⟩ := h
      · cases e.symm.trans out
      · rw [Health.disturbed, ← count, ← quiet]
    · rfl
  · rfl

theorem healthOf_takeReport_of_still (h : Still (s.healthOf p) s.time) (r : Report) :
    (s.takeReport r).healthOf p = s.healthOf p := by
  have ⟨unmarked, states⟩ := h
  have outside : (s.healthOf p).state.outside = true := by rcases states with e | ⟨e, -⟩ <;> rw [e] <;> rfl
  by_cases hr : r.port = p
  · obtain ⟨q, kind, source⟩ := r
    subst hr
    cases kind with
    | penalty n =>
      show (s.takePenalty q n).healthOf q = _
      rcases states with e | ⟨e, -⟩
      · rw [takePenalty_of_detached e]
      · rw [show s.takePenalty q n = s.takeDisturbance q by simp [State.takePenalty, unmarked, e],
          healthOf_takeDisturbance_of_still h]
    | credit =>
      show (s.takeCredit q).healthOf q = _
      rw [takeCredit_of_outside outside]
    | disturbance => exact healthOf_takeDisturbance_of_still h q
  · exact healthOf_takeReport_ne (Ne.symm hr)

theorem healthOf_settle_of_still (h : Still (s.healthOf p) s.time) : s.settle.healthOf p = s.healthOf p := by
  have ⟨same, _⟩ : s.settle.healthOf p = s.healthOf p ∧ s.settle.time = s.time := by
    refine settle_induction (P := fun u => u.healthOf p = s.healthOf p ∧ u.time = s.time) ⟨rfl, rfl⟩ (fun _ _ _ _ hu => hu)
      fun u r ⟨same, now⟩ => ⟨?_, ?_⟩
    · rw [healthOf_takeReport_of_still (by rw [same, now]; exact h), same]
    · rw [State.takeReport_frame]
      exact now
  exact same

end Reports

/-! ### The last step -/

section LastStep
variable (s : State) (p : Port)

/-- The state in which the port is DETACHED, or REJOINING, and the EXPELs are still to be finished. -/
def detachedNow : State := (s.orphaned p).modHealth p fun h => h.detachedAt (s.orphaned p).time

theorem stepTaken_orphan : stepTaken p s .orphan = ((detachedNow s p).finishExpels p).settle := rfl

theorem healthOf_detachedNow (q : Port) :
    (detachedNow s p).healthOf q = if q = p then (s.healthOf p).detachedAt s.time else s.healthOf q := by
  rw [detachedNow, State.healthOf_modHealth, orphaned_frame]
  rfl

theorem phaseOf_detachedNow (q : Port) : (detachedNow s p).phaseOf q = s.phaseOf q := by
  rw [detachedNow, orphaned_frame]
  rfl

theorem time_finishExpels : ((detachedNow s p).finishExpels p).time = s.time := by
  rw [finishExpels_frame, detachedNow, orphaned_frame]
  rfl

theorem still_detachedAt (h : Health) (now : Time) : Still (h.detachedAt now) now := by
  obtain ⟨-, -, mark, count, -, -, ⟨out, -⟩ | ⟨back, quiet, -⟩⟩ := h.detachedAt_cases now
  · exact ⟨mark, .inl out⟩
  · exact ⟨mark, .inr ⟨back, count, quiet⟩⟩

/-- The record of a port that is detached and expelled. -/
theorem sentBack_detachedAt (h : Health) (now : Time) :
    let g := sentBack (h.detachedAt now)
    g.score = 0 ∧ g.warn = false ∧ g.mark = false ∧ g.rejoinCount = 0 ∧ g.autoRejoin = h.autoRejoin ∧ g.state = .detached ∧
      g.quiet = none ∧ g.cause = if h.cause = .score ∧ h.autoRejoin = true then .expelled else h.cause := by
  obtain ⟨score, warn, mark, count, cause, policy, ⟨out, quiet, no⟩ | ⟨back, -, yes⟩⟩ := h.detachedAt_cases now
  · rw [sentBack, out, if_neg (by decide), if_neg no]
    exact ⟨score, warn, mark, count, policy, out, quiet, cause⟩
  · rw [sentBack, back, if_pos rfl, if_pos yes]
    exact ⟨score, warn, mark, rfl, policy, rfl, rfl, rfl⟩

variable {s p}

theorem healthOf_last_of_none (h : ∀ q, s.phaseOf q ≠ some (.expelling p false)) :
    (stepTaken p s .orphan).healthOf p = (s.healthOf p).detachedAt s.time := by
  have record : ((detachedNow s p).finishExpels p).healthOf p = (s.healthOf p).detachedAt s.time := by
    rw [healthOf_finishExpels_of_none (by simpa only [phaseOf_detachedNow] using h), healthOf_detachedNow, if_pos rfl]
  rw [stepTaken_orphan, healthOf_settle_of_still (by rw [record, time_finishExpels]; exact still_detachedAt _ _), record]

theorem healthOf_last_of_waiting {q : Port} (h : s.phaseOf q = some (.expelling p false)) :
    (stepTaken p s .orphan).healthOf p = sentBack ((s.healthOf p).detachedAt s.time) := by
  have record : ((detachedNow s p).finishExpels p).healthOf p = sentBack ((s.healthOf p).detachedAt s.time) := by
    rw [healthOf_finishExpels_of_waiting (by rw [phaseOf_detachedNow]; exact h), healthOf_detachedNow, if_pos rfl]
  have ⟨_, _, mark, _, _, out, _⟩ := sentBack_detachedAt (s.healthOf p) s.time
  rw [stepTaken_orphan, healthOf_settle_of_still (by rw [record]; exact ⟨mark, .inl out⟩), record]

theorem finishedDone_last {q : Port} {began : Bool} (h : s.phaseOf q = some (.expelling p began)) :
    FinishedDone (stepTaken p s .orphan) q := by
  rw [stepTaken_orphan]
  exact finishedDone_settle (finishedDone_finishExpels (by rw [phaseOf_detachedNow]; exact h))

/-- The mark of another port stays set. -/
theorem mark_last {q : Port} (hq : q ≠ p) (h : (s.healthOf q).mark = true) : ((stepTaken p s .orphan).healthOf q).mark = true := by
  rw [stepTaken_orphan]
  obtain ⟨marks, -⟩ := (Steady.refl ((detachedNow s p).finishExpels p)).settle
  refine (marks q ?_).1
  rw [healthOf_finishExpels_ne hq, healthOf_detachedNow, if_neg hq]
  exact h

end LastStep
end Sys2Proof.PortHealth
end

section
namespace Sys2Proof.PortHealth
open Sys2Proof Sys2Proof.Machine Sys2Proof.Publication

/-! ### A detachment taken to its end (R48, R124 to R130) -/

section Run
variable {s : State} {p : Port} {st : DetachStep}

/-- The state after the steps left from `st` on. -/
def detachedFrom (p : Port) (st : DetachStep) (s : State) : State := (stepsFrom st).foldl (stepTaken p) s

theorem detachedFrom_eq (p : Port) (st : DetachStep) (s : State) :
    detachedFrom p st s = stepTaken p ((stepsBefore st).foldl (stepTaken p) s) .orphan := by
  rw [detachedFrom, stepsFrom_eq, List.foldl_append]
  rfl

/-! The fields that one step alone changes. -/

theorem token_detachedFrom :
    (detachedFrom p st s).token = if stepPlace st ≤ stepPlace .token ∧ s.token = some p then none else s.token := by
  have h := reading_after_steps (p := p) State.token (fun x => if x = some p then none else x) .token
    (fun u => by rw [stepTaken_frame]; simp) (fun u y hy => by rw [stepTaken_frame]; simp [hy]) st s
  rw [detachedFrom, h]
  by_cases hp : stepPlace st ≤ stepPlace .token <;> simp [hp]

theorem holds_detachedFrom :
    (detachedFrom p st s).holds = if stepPlace st ≤ stepPlace .hold then s.holds.set p none else s.holds :=
  reading_after_steps State.holds (·.set p none) .hold (fun u => by rw [stepTaken_frame]; simp)
    (fun u y hy => by rw [stepTaken_frame]; simp [hy]) st s

theorem queue_detachedFrom : (detachedFrom p st s).queue =
    if stepPlace st ≤ stepPlace .publications then s.queue.filter fun o => o.source != .port p else s.queue :=
  reading_after_steps State.queue (fun x => x.filter fun o => o.source != .port p) .publications
    (fun u => by rw [stepTaken_frame]; simp) (fun u y hy => by rw [stepTaken_frame]; simp [hy]) st s

theorem lostOwners_detachedFrom : (detachedFrom p st s).lostOwners =
    if stepPlace st ≤ stepPlace .requests then s.lostOwners.insert p else s.lostOwners :=
  reading_after_steps State.lostOwners (·.insert p) .requests (fun u => by rw [stepTaken_frame]; simp)
    (fun u y hy => by rw [stepTaken_frame]; simp [hy]) st s

/-- The fields that no step changes. -/
theorem kept_detachedFrom : (detachedFrom p st s).time = s.time ∧ (detachedFrom p st s).prescaler = s.prescaler ∧
    (detachedFrom p st s).holdTimeout = s.holdTimeout ∧ (detachedFrom p st s).restartMark = s.restartMark ∧
      ∀ q, filtersOf q (detachedFrom p st s) = filtersOf q s :=
  ⟨reading_kept_by_steps State.time (fun u y => by rw [stepTaken_frame]) st s,
    reading_kept_by_steps State.prescaler (fun u y => by rw [stepTaken_frame]) st s,
    reading_kept_by_steps State.holdTimeout (fun u y => by rw [stepTaken_frame]) st s,
    reading_kept_by_steps State.restartMark (fun u y => by rw [stepTaken_frame]) st s,
    fun q => reading_kept_by_steps (filtersOf q) (fun u y => filtersOf_stepTaken u p q y) st s⟩

/-! What a step clears stays clear. -/

/-- No due and no pending value is the port's. -/
def Discarded (p : Port) (s : State) : Prop :=
  (∀ o ∈ s.due, o.source ≠ .port p) ∧ ∀ k o, (s.slot k).parked = some o → o.source ≠ .port p

theorem discarded_detachedFrom (h : stepPlace st ≤ stepPlace .publications ∨ Discarded p s) : Discarded p (detachedFrom p st s) := by
  refine holds_after_steps (x := .publications) (fun u => ?_) (fun u y hy hu => ?_) st s h
  · refine ⟨fun o ho => ?_, fun k o ho => ?_⟩
    · rw [stepTaken, State.settle_frame] at ho
      simpa using (List.mem_filter.mp ho).2
    · rw [slot_stepTaken] at ho
      have record : ((u.detachStep p .publications).slot k) =
          if (u.slot k).parkedBy p then { u.slot k with parked := none } else u.slot k := State.slot_mapSlots (u.withdraw p) k _
      rw [record] at ho
      split at ho
      · cases ho
      · next other => simpa [Slot.parkedBy, ho] using other
  · obtain ⟨due, parked⟩ := parked_after_publications u p hy
    unfold Discarded
    simp only [due, parked]
    exact hu

theorem unasked_detachedFrom (h : stepPlace st ≤ stepPlace .requests ∨ s.Unasked p) : (detachedFrom p st s).Unasked p := by
  refine holds_after_steps (P := fun u => u.Unasked p) (x := .requests) (fun u k => ?_) (fun u y hy hu k => ?_) st s h
  · obtain ⟨unasked, -⟩ := u.cleared_detachStep p .requests
    rw [slot_stepTaken]
    exact unasked k
  · obtain ⟨-, -, requesters⟩ := requesters_after_requests u p hy k
    rw [requesters]
    exact hu k

theorem eq_orphan_of_later {y : DetachStep} (h : stepPlace .notes < stepPlace y) : y = .orphan := by
  revert h
  cases y <;> decide

theorem closed_detachedFrom
    (h : stepPlace st ≤ stepPlace .notes ∨ ((s.noteUnit p).queue = [] ∧ (s.noteUnit p).delivery = .closed)) :
    ((detachedFrom p st s).noteUnit p).queue = [] ∧ ((detachedFrom p st s).noteUnit p).delivery = .closed := by
  refine holds_after_steps (P := fun u => (u.noteUnit p).queue = [] ∧ (u.noteUnit p).delivery = .closed) (x := .notes)
    (fun u => ?_) (fun u y hy hu => ?_) st s h
  · obtain ⟨queue, closed, -⟩ := u.cleared_detachStep p .notes
    rw [noteUnit_stepTaken]
    exact ⟨queue, closed⟩
  · rw [eq_orphan_of_later hy, noteUnit_stepTaken, State.detachStep, noteUnit_detachOrphan_of_closed hu.2]
    exact hu

theorem unseen_detachedFrom
    (h : stepPlace st ≤ stepPlace .notes ∨ ∀ k, (s.slot k).unread.has p = false ∧ (s.slot k).missed.has p = false) (k : SlotIx) :
    ((detachedFrom p st s).slot k).unread.has p = false ∧ ((detachedFrom p st s).slot k).missed.has p = false := by
  refine holds_after_steps (P := fun u => ∀ k, (u.slot k).unread.has p = false ∧ (u.slot k).missed.has p = false) (x := .notes)
    (fun u k => ?_) (fun u y hy hu k => ?_) st s h k
  · obtain ⟨-, -, sets⟩ := u.cleared_detachStep p .notes
    rw [slot_stepTaken]
    exact sets k
  · rw [eq_orphan_of_later hy, slot_stepTaken, State.detachStep, slot_detachOrphan, slot_orphaned]
    split <;> exact hu k

/-! The slots of the port. -/

theorem orphaned_detachedFrom (k : SlotIx) (ho : ((detachedFrom p st s).slot k).config.owner = p)
    (hs : ((detachedFrom p st s).slot k).state ≠ .unused) : ((detachedFrom p st s).slot k).orphaned = true := by
  rw [detachedFrom_eq, slot_stepTaken, State.detachStep, slot_detachOrphan, slot_orphaned] at ho hs ⊢
  split
  · rfl
  · next other =>
    rw [if_neg other] at ho hs
    exact absurd ⟨ho, hs⟩ other

theorem requesters_detachedFrom (h : stepPlace st ≤ stepPlace .requests) (k : SlotIx)
    (ho : ((detachedFrom p st s).slot k).config.owner = p) (hs : ((detachedFrom p st s).slot k).state ≠ .unused) :
    ((detachedFrom p st s).slot k).requesters = PortSet.empty := by
  refine holds_after_steps (P := fun u => (u.slot k).config.owner = p → (u.slot k).state ≠ .unused →
    (u.slot k).requesters = PortSet.empty) (x := .requests) (fun u => ?_) (fun u y hy hu => ?_) st s (.inl h) ho hs
  · rw [slot_stepTaken, State.detachStep, slot_detachRequests]
    split
    · exact fun _ _ => rfl
    · next other =>
      intro ho hs
      by_contra asked
      exact other ⟨ho, hs, Bool.eq_false_iff.mpr fun e => asked (Requests.isEmpty_iff_eq_empty.mp e)⟩
  · obtain ⟨config, state, requesters⟩ := requesters_after_requests u p hy k
    rw [config, state, requesters]
    exact hu

theorem requesterLaw_detachedFrom (law : s.RequesterLaw) : (detachedFrom p st s).RequesterLaw :=
  law.foldl (fun _ y hu => (hu.detachStep p y).settle) _

theorem ownSlots_detachedFrom (law : s.RequesterLaw) (k : SlotIx) (ho : ((detachedFrom p st s).slot k).config.owner = p)
    (hs : ((detachedFrom p st s).slot k).state ≠ .unused) :
    ((detachedFrom p st s).slot k).orphaned = true ∧ (stepPlace st ≤ stepPlace .requests →
      ((detachedFrom p st s).slot k).requesters = PortSet.empty ∧ ((detachedFrom p st s).slot k).deadline = none) := by
  refine ⟨orphaned_detachedFrom k ho hs, fun h => ?_⟩
  have empty := requesters_detachedFrom h k ho hs
  obtain ⟨-, armed⟩ := requesterLaw_detachedFrom (p := p) (st := st) law k
  refine ⟨empty, ?_⟩
  rw [empty] at armed
  simpa [Option.isSome_iff_ne_none] using mt armed.mp (by decide)

/-! The port's record, and the EXPELs that wait for it. -/

/-- An EXPEL in hand of a port that is not marked waits until the last step. -/
theorem phaseOf_stepsBefore {q target : Port} {began : Bool} (h : s.phaseOf q = some (.expelling target began))
    (hm : (((stepsBefore st).foldl (stepTaken p) s).healthOf q).mark = false) :
    ((stepsBefore st).foldl (stepTaken p) s).phaseOf q = some (.expelling target began) := by
  obtain ⟨⟨-, waits⟩, -⟩ := steady_stepsBefore s p st
  obtain ⟨c, hc, phase⟩ := Option.map_eq_some_iff.mp h
  rcases waits q c target began hc phase with mark | busy
  · cases hm.symm.trans mark
  · simp [State.phaseOf, busy, phase]

theorem mark_stepsBefore {q : Port} (hq : q ≠ p) (h : ((detachedFrom p st s).healthOf q).mark = false) :
    (((stepsBefore st).foldl (stepTaken p) s).healthOf q).mark = false := by
  rw [detachedFrom_eq] at h
  by_contra hm
  cases h.symm.trans (mark_last hq (by simpa using hm))

theorem finishedDone_detachedFrom {q : Port} (hq : q ≠ p) {began : Bool} (h : s.phaseOf q = some (.expelling p began))
    (hm : ((detachedFrom p st s).healthOf q).mark = false) : FinishedDone (detachedFrom p st s) q := by
  have waits := phaseOf_stepsBefore h (mark_stepsBefore hq hm)
  rw [detachedFrom_eq]
  exact finishedDone_last waits

/-- The record that the last step finds has the cause and the policy of the beginning. -/
theorem record_stepsBefore (hm : (s.healthOf p).mark = true) :
    let u := (stepsBefore st).foldl (stepTaken p) s
    (u.healthOf p).cause = (s.healthOf p).cause ∧ (u.healthOf p).autoRejoin = (s.healthOf p).autoRejoin ∧ u.time = s.time := by
  obtain ⟨⟨marks, -⟩, -⟩ := steady_stepsBefore s p st
  obtain ⟨-, cause, policy⟩ := marks p hm
  exact ⟨cause, policy, foldl_keeps (P := fun u => u.time = s.time)
    (fun u y hu => by rw [stepTaken_frame]; exact hu) _ _ rfl⟩

end Run

/-- What is said of the record of a port whose detachment has ended. -/
def DetachedRecord (s t : State) (p : Port) : Prop :=
  let h := t.healthOf p
  let rejoins := (s.healthOf p).cause = .score ∧ (s.healthOf p).autoRejoin = true
  let expelled := ∃ q, s.phaseOf q = some (.expelling p false)
  h.score = 0 ∧ h.warn = false ∧ h.mark = false ∧ h.rejoinCount = 0 ∧ h.autoRejoin = (s.healthOf p).autoRejoin ∧
    (¬ expelled → h.cause = (s.healthOf p).cause ∧ (¬ rejoins → h.state = .detached ∧ h.quiet = none) ∧
      (rejoins → h.state = .rejoining ∧ h.quiet = some (s.time + 256#32))) ∧
    ((∃ q, q ≠ p ∧ s.phaseOf q = some (.expelling p false) ∧ (s.healthOf q).mark = false ∧ (t.healthOf q).mark = false) →
      h.state = .detached ∧ h.quiet = none ∧ h.cause = if rejoins then .expelled else (s.healthOf p).cause)

theorem detachedRecord_detachedFrom {s : State} {p : Port} (st : DetachStep) (hm : (s.healthOf p).mark = true) :
    DetachedRecord s (detachedFrom p st s) p := by
  obtain ⟨cause, policy, time⟩ := record_stepsBefore (st := st) hm
  obtain ⟨-, none⟩ := steady_stepsBefore s p st
  unfold DetachedRecord
  by_cases waiting : ∃ q, ((stepsBefore st).foldl (stepTaken p) s).phaseOf q = some (.expelling p false)
  · obtain ⟨q, hq⟩ := waiting
    have record := healthOf_last_of_waiting hq
    obtain ⟨score, warn, mark, count, policy', out, quiet, cause'⟩ :=
      sentBack_detachedAt (((stepsBefore st).foldl (stepTaken p) s).healthOf p) ((stepsBefore st).foldl (stepTaken p) s).time
    rw [cause, policy] at cause'
    rw [← detachedFrom_eq] at record
    rw [record]
    exact ⟨score, warn, mark, count, policy'.trans policy, fun no => absurd ⟨q, phaseOf_of_noGain none hq⟩ no,
      fun _ => ⟨out, quiet, cause'⟩⟩
  · have record := healthOf_last_of_none (p := p) fun q hq => waiting ⟨q, hq⟩
    obtain ⟨score, warn, mark, count, cause', policy', states⟩ :=
      (((stepsBefore st).foldl (stepTaken p) s).healthOf p).detachedAt_cases ((stepsBefore st).foldl (stepTaken p) s).time
    rw [cause, policy] at states
    rw [← detachedFrom_eq] at record
    rw [record]
    refine ⟨score, warn, mark, count, policy'.trans policy, fun _ => ⟨cause'.trans cause, fun no => ?_, fun yes => ?_⟩, ?_⟩
    · obtain ⟨out, quiet, -⟩ | ⟨-, -, yes⟩ := states
      · exact ⟨out, quiet⟩
      · exact absurd yes no
    · obtain ⟨-, -, no⟩ | ⟨back, quiet, -⟩ := states
      · exact absurd yes no
      · exact ⟨back, time ▸ quiet⟩
    · rintro ⟨q, hq, phase, -, unmarked⟩
      exact absurd ⟨q, phaseOf_stepsBefore phase (mark_stepsBefore hq unmarked)⟩ waiting

/-! ### DETACHMENT -/

section Exec
variable {s : State} {p : Port} {st : DetachStep}

theorem reports_detachedFrom : (detachedFrom p st s).reports = [] := by
  rw [detachedFrom_eq]
  exact State.settle_reports _

theorem runDetachment_of_running (upTo : DetachStep) (hd : s.detaching = some (p, st)) :
    runDetachment p upTo s = s.runDetach p upTo 6 st := by
  simp [runDetachment, hd]

theorem runDetachment_of_waiting (upTo : DetachStep) (hd : s.detaching = none) {ps : List Port} {rest : List (List Port)}
    (hq : s.detachQueue = ps :: rest) (hp : p ∈ ps) :
    runDetachment p upTo s = { s with detachQueue := dropWaiting p (ps :: rest) }.runDetach p upTo 6 .token := by
  simp [runDetachment, hd, hq, hp]

/-- DETACHMENT to the last step takes the steps left of the port's detachment. -/
theorem exec_detachment_orphan (hset : s.settled) (hd : s.detaching = some (p, st) ∨
      (s.detaching = none ∧ st = .token ∧ ∃ ps rest, s.detachQueue = ps :: rest ∧ p ∈ ps)) :
    ∃ D, exec (.detachment p .orphan) s = .next { detachedFrom p st { s with detachQueue := D } with detaching := none } := by
  obtain ⟨live, -⟩ := hset
  have ran (D : List (List Port)) (e : runDetachment p .orphan s = { s with detachQueue := D }.runDetach p .orphan 6 st) :
      exec (.detachment p .orphan) s = .next { detachedFrom p st { s with detachQueue := D } with detaching := none } := by
    refine (event_next live).trans ?_
    rw [e, runDetach_eq, State.settle_nil _ (by exact reports_detachedFrom)]
    rfl
  rcases hd with hd | ⟨hd, rfl, ps, rest, hq, hp⟩
  · exact ⟨s.detachQueue, ran _ (runDetachment_of_running .orphan hd)⟩
  · exact ⟨_, ran _ (runDetachment_of_waiting .orphan hd hq hp)⟩

theorem stepTaken_token (quiet : s.reports = []) :
    stepTaken p s .token = { s with token := if s.token = some p then none else s.token } := by
  rw [stepTaken, State.detachStep, freeToken_eq, State.settle_nil _ (by exact quiet)]

/-- The first step alone. -/
theorem exec_detachment_token (hset : s.settled) (hd : s.detaching = none) {ps : List Port} {rest : List (List Port)}
    (hq : s.detachQueue = ps :: rest) (hp : p ∈ ps) :
    exec (.detachment p .token) s = .next
      { s with token := if s.token = some p then none else s.token, detaching := some (p, .hold),
               detachQueue := dropWaiting p (ps :: rest) } := by
  obtain ⟨live, quiet⟩ := hset
  have began : { s with detachQueue := dropWaiting p (ps :: rest) }.runDetach p .token 6 .token =
      { stepTaken p { s with detachQueue := dropWaiting p (ps :: rest) } .token with detaching := some (p, .hold) } := by
    simp [State.runDetach, stepPlace, stepAfter, stepTaken]
  refine (event_next live).trans ?_
  rw [runDetachment_of_waiting .token hd hq hp, began, stepTaken_token (by exact quiet), State.settle_nil _ (by exact quiet)]

end Exec

/-- Settles O58: each part of the record is changed by one step of the run, and no later step changes it back. -/
theorem detachmentRemovesThePort : Obligations.DetachmentRemovesThePort := by
  refine ⟨fun s p st hset law hm hd => ?_, fun s p ps rest hset hd hq hp _ => ?_⟩
  · obtain ⟨D, run⟩ := exec_detachment_orphan hset hd
    let begun : State := { s with detachQueue := D }
    refine ⟨_, run, rfl, detachedRecord_detachedFrom (s := begun) st hm, ?_⟩
    obtain ⟨time, prescaler, timeout, restart, filters⟩ := kept_detachedFrom (s := begun) (p := p) (st := st)
    exact ⟨fun q hq ⟨_, waits⟩ _ => finishedDone_detachedFrom (s := begun) hq waits, token_detachedFrom, holds_detachedFrom,
      queue_detachedFrom, discarded_detachedFrom (s := begun), lostOwners_detachedFrom, unasked_detachedFrom (s := begun),
      closed_detachedFrom (s := begun), unseen_detachedFrom (s := begun), ownSlots_detachedFrom (s := begun) law, filters,
      time, prescaler, timeout, restart⟩
  · refine ⟨_, exec_detachment_token hset hd hq hp, fun q => ?_⟩
    rw [flatten_dropWaiting]
    simp [or_comm]

end Sys2Proof.PortHealth
end

section
namespace Sys2Proof.TokenAndRestart
open Sys2Proof Sys2Proof.Machine Sys2Proof.Publication Sys2Proof.Requests

/-! ### The token (R138, R139, R143) -/

section Token
variable {s : State} {p q : Port} {n : Byte}

theorem takeClaim_of_degraded (hd : (s.healthOf p).state = .degraded) : takeClaim p s = s.refuse p .degraded := if_pos hd

theorem takeClaim_of_held (hd : (s.healthOf p).state ≠ .degraded) (ht : s.token = some q) :
    takeClaim p s = if q = p then s.post p .done else s.refuse p .tokenHeld := by
  rw [takeClaim, if_neg hd, ht]

theorem takeClaim_of_free (hd : (s.healthOf p).state ≠ .degraded) (ht : s.token = none) :
    takeClaim p s = { s with token := some p }.post p .done := by
  rw [takeClaim, if_neg hd, ht]

/-- CLAIM_TOKEN of a ready port is taken by the Control Unit. -/
theorem exec_claimToken (hready : s.ready p) :
    exec (.claimToken p n) s = .next (takeClaim p (s.busyWith p .claimToken n .taken)).settle :=
  cycle_command hready (by decide)

/-- YIELD_TOKEN of a ready port is taken by the Control Unit. -/
theorem exec_yieldToken (hready : s.ready p) :
    exec (.yieldToken p n) s = .next (takeYield p (s.busyWith p .yieldToken n .taken)).settle :=
  cycle_command hready (by decide)

/-- Every token command is a write of its code whose first check is the token check (R143). -/
theorem ifToken_of_mem_tokenCommands {i : Port → Byte → Instr} (hi : i ∈ tokenCommands) (p : Port) (n : Byte) :
    ∃ (c : Command) (f : State → State), (∀ s, exec (i p n) s = cycle p (fun t => t.writeCommand p c n) s) ∧
      (∀ t, takeCommand c p n t = t.ifToken p f) ∧ c ≠ .resetPort := by
  simp only [tokenCommands, List.mem_cons, List.not_mem_nil, or_false] at hi
  rcases hi with rfl | rfl | rfl | rfl | rfl | rfl | rfl | rfl | rfl | rfl | rfl | rfl | rfl | rfl | rfl <;>
    exact ⟨_, _, fun _ => rfl, fun _ => rfl, by decide⟩

/-- What a token command comes to that a port without the token gives. -/
theorem exec_tokenCommand_without_token {i : Port → Byte → Instr} (hi : i ∈ tokenCommands) (hready : s.ready p)
    (hb : s.bears p 4) (ht : s.token ≠ some p) : exec (i p n) s = .next ((s.answered p .noToken).fined p 4) := by
  obtain ⟨c, f, written, checks, hc⟩ := ifToken_of_mem_tokenCommands hi p n
  rw [written, cycle_command hready hc, checks, State.ifToken, if_neg (by exact ht), settle_refuse_penalised hready hb rfl]

end Token

/-- Settles O35: CLAIM_TOKEN by the health state and the token's holder, YIELD_TOKEN by the holder, and the token check. -/
theorem tokenRules : Obligations.TokenRules := by
  intro s p n hready hb
  refine ⟨fun hd => ?_, fun ha => ?_, fun ht => ?_, fun ht => ?_, fun ht c hc => exec_tokenCommand_without_token hc hready hb ht⟩
  · rw [exec_claimToken hready, takeClaim_of_degraded (by exact hd), settle_refuse_plain hready rfl]
  · have fit : ((s.busyWith p .claimToken n .taken).healthOf p).state ≠ .degraded := fun hd => by cases ha.symm.trans hd
    refine ⟨fun ht => ?_, fun q hq ht => ?_, fun ht => ?_⟩
    · exact cycle_done (X := s) hready (by decide) ((takeClaim_of_held fit ht).trans (if_pos rfl)) rfl
    · rw [exec_claimToken hready, takeClaim_of_held fit ht, if_neg hq, settle_refuse_plain hready rfl]
    · exact cycle_done (X := { s with token := some p }) hready (by decide) (takeClaim_of_free fit ht) rfl
  · exact cycle_done (X := { s with token := none }) hready (by decide) (if_pos ht) rfl
  · rw [exec_yieldToken hready, takeYield, if_neg (by exact ht), settle_refuse_penalised hready hb rfl]

end Sys2Proof.TokenAndRestart
end

section
namespace Sys2Proof.TokenAndRestart
open Sys2Proof Sys2Proof.Machine Sys2Proof.Publication Sys2Proof.PortHealth

/-! ### The end of a restart (R146, R147) -/

section RestartEnd
variable {s : State} {p : Port}

/-- Of at most one thing there is one order, and no choice is made. -/
theorem shuffle_of_length_le_one {α : Type} {l : List α} (s : State) (h : l.length ≤ 1) : s.shuffle l = (l, s) := by
  match l with
  | [] => rfl
  | [_] => rfl
  | _ :: _ :: _ => exact absurd h (by simp)

theorem waitingPorts_eq_nil (h : ∀ q, s.phaseOf q ≠ some .afterRestart) : s.waitingPorts = [] := by
  rw [State.waitingPorts, List.filter_eq_nil_iff]
  intro q _
  simpa using h q

theorem waitingPorts_eq_singleton (hp : s.phaseOf p = some .afterRestart)
    (h : ∀ q, q ≠ p → s.phaseOf q ≠ some .afterRestart) : s.waitingPorts = [p] := by
  have only : (fun q => s.phaseOf q == some .afterRestart) = fun q => q == p := by
    funext q
    by_cases e : q = p
    · simp [e, hp]
    · simp [e, h q e]
  rw [State.waitingPorts, only]
  cases p <;> rfl

/-- The state in which the waiting commands are released: RUNNING, the mark clear, every RESTART in hand done (R146). -/
def restartOver (s : State) : State :=
  { s with restartMark := false, exchange := .running }.finished fun q => s.inHand q .restart

theorem port_restartOver (h : s.inHand p .restart = false) : (restartOver s).port p = s.port p := by
  simp [restartOver, State.finished, State.port, h]

/-- A command waits at the end of a restart only if it has waited before. -/
theorem phaseOf_restartOver_ne (h : s.phaseOf p ≠ some .afterRestart) : (restartOver s).phaseOf p ≠ some .afterRestart := by
  cases inHand : s.inHand p .restart
  · rwa [State.phaseOf, port_restartOver inHand]
  · simp [State.phaseOf, restartOver, State.finished, State.port, inHand]

/-- RESTART_END releases at most one waiting command with no choice of order, and takes its reports (R147). -/
theorem exec_restartEnd (hset : s.settled) (hx : s.exchange = .restarting) {ps : List Port}
    (hw : (restartOver s).waitingPorts = ps) (h1 : ps.length ≤ 1) :
    exec .restartEnd s = .next (ps.foldl (fun u p => (u.release p).settle) (restartOver s)).settle := by
  have ended : { s with restartMark := false, exchange := .running }.completeAll .restart = restartOver s :=
    State.completeAll_eq _ _
  refine (event_next hset.1).trans ?_
  simp only [endRestart, if_pos hx, ended, hw, shuffle_of_length_le_one _ h1]

/-- A command released to its block is the command of an IDLE unit that has just been written (R147). -/
theorem release_eq_takeCommand {c : Command} {n : Byte} (hb : (s.port p).unit.busy = some ⟨c, n, .afterRestart⟩)
    (hd : (s.port p).unit.done = false) : s.release p = takeCommand c p n (s.busyWith p c n .taken) := by
  have taken : s.setPhase p .taken = s.busyWith p c n .taken := by
    simp only [State.setPhase, State.modPort, State.busyWith, hb, Option.map_some, ← hd]
  rw [State.release, hb, ← taken]

end RestartEnd

/-- Settles O55: with no waiting command nothing is released, and the one that waits finds a port that is ready. -/
theorem restartEnds : Obligations.RestartEnds := by
  intro s hset hx t
  have hrep : t.reports = [] := hset.2
  refine ⟨fun unwaited => ?_, fun p c n hb hc hd hi hm hl alone => ?_⟩
  · have nothing : t.waitingPorts = [] := waitingPorts_eq_nil fun q => phaseOf_restartOver_ne (unwaited q)
    rw [exec_restartEnd hset hx nothing (by simp)]
    exact congrArg _ (State.settle_nil t hrep)
  · intro u idle
    have unit : t.port p = s.port p := port_restartOver (by simp [State.inHand, hb])
    have busy : (t.port p).unit.busy = some ⟨c, n, .afterRestart⟩ := by rw [unit, hb]
    have one : t.waitingPorts = [p] :=
      waitingPorts_eq_singleton (by simp [State.phaseOf, busy]) fun q hq => phaseOf_restartOver_ne (alone q hq)
    have ready : idle.ready p := ⟨⟨hset.1, hrep⟩, by simp [idle, State.port], hi, hm, by rintro ⟨⟩, hl⟩
    have same : idle.busyWith p c n .taken = t.busyWith p c n .taken := by simp [idle, u, State.busyWith, State.port]
    rw [exec_restartEnd hset hx one (by simp), exec_command, cycle_command ready hc, same,
      ← release_eq_takeCommand busy (by rw [unit, hd])]
    exact congrArg _ (State.settle_settle _)

end Sys2Proof.TokenAndRestart
end

section
namespace Sys2Proof.TokenAndRestart
open Sys2Proof Sys2Proof.Machine Sys2Proof.Publication Sys2Proof.PortHealth Sys2Proof.Requests Sys2Proof.TimeBase

/-! ### REJOIN and the quiet intervals (R131, R133, R134, R147, R171) -/

section Rejoin
variable {s : State} {p : Port} {n : Byte} {e : Time}

/-- A REJOIN of an IDLE unit: the Port Unit refuses it or keeps it, or the Health Unit takes it (R131, R147, R171). -/
theorem writeCommand_rejoin_of_idle (hb : (s.port p).unit.busy = none) :
    s.writeCommand p .rejoin n =
      if (s.healthOf p).state = .rejoining ∨ (s.healthOf p).mark = true then (s.answered p .detached).report p .disturbance
      else if s.exchange = .restarting then s.busyWith p .rejoin n .afterRestart
      else takeRejoin p (s.busyWith p .rejoin n .taken) := by
  have refuses : (s.busyWith p .rejoin n .taken).refusesDetached p .rejoin =
      ((s.healthOf p).state == .rejoining || (s.healthOf p).mark) := by
    rw [State.refusesDetached, if_pos rfl]
    rfl
  have refused : (s.busyWith p .rejoin n .taken).refuse p .detached = (s.answered p .detached).report p .disturbance :=
    congrArg (fun t : State => t.report p .disturbance) (post_busyWith s p .rejoin n .detached)
  rw [State.writeCommand, if_neg (by decide), hb, if_neg (by simp), State.acceptWrite_eq]
  dsimp only
  rw [refuses, refused, setPhase_busyWith]
  simp only [Bool.or_eq_true, beq_iff_eq]
  rfl

theorem exec_rejoin (hs : s.settled) (hl : s.lineLow.has p = false) :
    exec (.rejoin p n) s = .next (s.writeCommand p .rejoin n).settle :=
  cycle_next (f := fun t => t.writeCommand p .rejoin n) hs.1 hl

theorem takeRejoin_of_inside (hi : s.inside p = true) : takeRejoin p s = s.refuse p .notDetached := by
  rcases inside_iff.mp hi with e | e <;> rw [takeRejoin, e]

theorem takeRejoin_of_detached (hd : (s.healthOf p).state = .detached) :
    takeRejoin p s = (s.modHealth p fun h => h.rejoin s.time).post p .done := by
  rw [takeRejoin, hd]

/-- A quiet interval that ends begins the next, or is the sixteenth and brings the port back (R133, R134). -/
theorem endQuiet_of_due (hs : (s.healthOf p).state = .rejoining) (hq : (s.healthOf p).quiet = some e)
    (hx : s.exchange = .running ∨ s.exchange = .freezing) (ht : s.time = e) :
    endQuiet p s =
      if (s.healthOf p).rejoinCount + 1 = 16 then (s.modHealth p Health.returned).reportActive p
      else s.modHealth p fun x => { x with rejoinCount := x.rejoinCount + 1, quiet := some (e + 256#32) } := by
  subst ht
  simp only [endQuiet, hs, hq, timeRuns_iff.mpr hx, reached_self, and_self, if_true]
  rfl

theorem reportActive_eq (s : State) (p : Port) :
    s.reportActive p =
      { s with
        notes := s.notes.set p { s.noteUnit p with delivery := .delivering }
        lostOwners := s.lostOwners.erase p
        slots := s.slots.map fun r : Slot => { r with orphaned := r.orphaned && r.config.owner != p } } := by
  have cleared : (fun r : Slot => if r.config.owner = p then { r with orphaned := false } else r) =
      fun r : Slot => { r with orphaned := r.orphaned && r.config.owner != p } := by
    funext r
    by_cases owns : r.config.owner = p
    · simp [owns]
    · have other : (r.config.owner != p) = true := by simpa using owns
      rw [if_neg owns, other, Bool.and_true]
  rw [State.reportActive, cleared]
  rfl

theorem exec_quietIntervalEnd {t : State} (hs : s.settled) (he : endQuiet p s = t) (hr : t.reports = s.reports) :
    exec (.quietIntervalEnd p) s = .next t := event_unreported hs he hr

end Rejoin

/-- Settles O59: REJOIN by what the Port Unit and the Health Unit answer, and the end of an interval by the count. -/
theorem portRejoins : Obligations.PortRejoins := by
  intro s p n hs h
  have ⟨_, hrep⟩ := hs
  refine ⟨fun hb hl => ?_, fun hb hl hx hm => ?_, fun e hj hq hx ht => ⟨fun hc => ?_, fun hc => ?_⟩,
    fun hx => exec_quietIntervalEnd hs (endQuiet_of_stopped (timeRuns_of_stopped hx) p) rfl⟩
  · have disturbs := settle_disturbance_cases (s := s) (p := p) (t := s.answered p .detached) hrep rfl
    rw [exec_rejoin hs hl, writeCommand_rejoin_of_idle hb]
    refine ⟨fun hj => ?_, fun hm hj => ?_, fun hm hj hx => ?_⟩
    · rw [if_pos (.inl hj), disturbs, if_pos hj]
    · rw [if_pos (.inr hm), disturbs, if_neg hj]
    · rw [if_neg (not_or.mpr ⟨hj, ne_true_of_eq_false hm⟩), if_pos hx]
      exact congrArg _ (State.settle_nil _ hrep)
  · have passes (hj : h.state ≠ .rejoining) :
        exec (.rejoin p n) s = .next (takeRejoin p (s.busyWith p .rejoin n .taken)).settle := by
      rw [exec_rejoin hs hl, writeCommand_rejoin_of_idle hb, if_neg (not_or.mpr ⟨hj, ne_true_of_eq_false hm⟩), if_neg hx]
    refine ⟨fun hi => ?_, fun hd => ?_⟩
    · have hj : h.state ≠ .rejoining := by rcases inside_iff.mp hi with e | e <;> rw [e] <;> decide
      rw [passes hj, takeRejoin_of_inside (by exact hi), settle_refuse_plain ⟨hs, hb, hi, hm, hx, hl⟩ rfl]
    · rw [passes (by rw [hd]; decide), takeRejoin_of_detached (by exact hd)]
      exact congrArg _ ((congrArg State.settle (post_busyWith (s.modHealth p fun g => g.rejoin s.time) p .rejoin n .done)).trans
        (State.settle_nil _ hrep))
  · refine exec_quietIntervalEnd hs ?_ rfl
    rw [endQuiet_of_due hj hq hx ht, if_neg (by exact hc.ne)]
    rfl
  · refine exec_quietIntervalEnd hs ?_ rfl
    rw [endQuiet_of_due hj hq hx ht, if_pos hc, reportActive_eq]
    rfl

end Sys2Proof.TokenAndRestart
end

section
namespace Sys2Proof.FreezeAndWatch
open Sys2Proof Sys2Proof.Machine Sys2Proof.Publication Sys2Proof.Views

/-! ### Token commands that end unanswered, or with a plain refusal (R143, R171) -/

section Tokens
variable {s t : State} {p : Port} {n : Byte} {c : Command} {f : State → State}

/-- What a token command comes to of which its owning block `f` makes no report. -/
theorem cycle_token_taken (hready : s.ready p) (ht : s.token = some p) (hc : c ≠ .resetPort)
    (hf : ∀ u : State, takeCommand c p n u = u.ifToken p f) (e : f (s.busyWith p c n .taken) = t)
    (hr : t.reports = s.reports) : cycle p (fun u => u.writeCommand p c n) s = .next t := by
  have ⟨⟨_, hrep⟩, _⟩ := hready
  have passes : (s.busyWith p c n .taken).ifToken p f = f (s.busyWith p c n .taken) := if_pos ht
  rw [cycle_command hready hc, hf, passes, e, State.settle_nil t (hr.trans hrep)]

/-- What a token command comes to that its owning block `f` refuses without a penalty. -/
theorem cycle_token_denied {r : Result} (hready : s.ready p) (ht : s.token = some p) (hc : c ≠ .resetPort)
    (hf : ∀ u : State, takeCommand c p n u = u.ifToken p f)
    (e : f (s.busyWith p c n .taken) = (s.busyWith p c n .taken).refuse p r) (hr : r.penalised = false) :
    cycle p (fun u => u.writeCommand p c n) s = .next (s.answered p r) := by
  have passes : (s.busyWith p c n .taken).ifToken p f = f (s.busyWith p c n .taken) := if_pos ht
  rw [cycle_command hready hc, hf, passes, e, settle_refuse_plain hready hr]

end Tokens

/-! ### A freeze called for with nothing on the due list (R150, R155, R164) -/

section Freezing
variable {s : State} {p : Port} {k : SlotIx}

/-- A step, or the landing of a drain, goes on under the freeze mark. -/
theorem callFreeze_of_going_on (hx : s.exchange = .stepping)
    (h : s.flight.isSome = true ∨ ∀ k, s.task ≠ some (.drain k)) : s.callFreeze = { s with freezeMark := true } := by
  unfold State.callFreeze
  rw [hx]
  dsimp only
  split
  · next k ht => rw [if_pos (h.resolve_right fun h => h k ht)]
  · rfl
  · rfl

theorem callFreeze_of_drain (hx : s.exchange = .stepping) (hf : s.flight = none) (hd : s.due = [])
    (ht : s.task = some (.drain k)) : s.callFreeze = s.frozenNow := by
  have frozen : { s with freezeMark := true }.becomeFrozen = s.frozenNow := State.becomeFrozen_of_due_nil _ hd
  rw [← frozen, State.callFreeze, hx]
  dsimp only
  rw [ht]
  exact if_neg (by simp [hf])

theorem callFreeze_of_idle (hx : s.exchange = .running) (hf : s.flight = none) (hd : s.due = []) :
    s.callFreeze = s.frozenNow := by
  rw [State.callFreeze, hx, ← State.becomeFrozen_of_due_nil s hd]
  exact if_neg (by simp [hf])

theorem freezeAsked_of_running (hx : s.exchange = .running) :
    s.freezeAsked = if s.flight.isSome then { s with exchange := .freezing } else s.frozenNow := by
  rw [State.freezeAsked, hx]

theorem freezeAsked_of_going_on (hx : s.exchange = .stepping)
    (h : s.flight.isSome = true ∨ ∀ k, s.task ≠ some (.drain k)) : s.freezeAsked = { s with freezeMark := true } := by
  unfold State.freezeAsked
  rw [hx]
  dsimp only
  split
  · next k ht hf => simp [hf, ht] at h
  all_goals rfl

theorem freezeAsked_of_drain (hx : s.exchange = .stepping) (hf : s.flight = none) (ht : s.task = some (.drain k)) :
    s.freezeAsked = s.frozenNow := by
  rw [State.freezeAsked, hx]
  dsimp only
  rw [ht, hf]

/-- With no due value to go back to its slot, a freeze called for is the table of R164. -/
theorem callFreeze_eq_freezeAsked (hd : s.due = []) : s.callFreeze = s.freezeAsked := by
  obtain ⟨x, hx⟩ : ∃ x, s.exchange = x := ⟨_, rfl⟩
  cases x with
  | running =>
    rw [freezeAsked_of_running hx]
    split
    · next hf => exact callFreeze_of_running hx hf
    · next hf => exact callFreeze_of_idle hx (Option.not_isSome_iff_eq_none.mp hf) hd
  | stepping =>
    by_cases h : s.flight.isSome = true ∨ ∀ k, s.task ≠ some (.drain k)
    · rw [callFreeze_of_going_on hx h, freezeAsked_of_going_on hx h]
    · push Not at h
      obtain ⟨hf, k, ht⟩ := h
      have landed : s.flight = none := Option.not_isSome_iff_eq_none.mp hf
      rw [callFreeze_of_drain hx landed hd ht, freezeAsked_of_drain hx landed ht]
  | freezing => rw [State.callFreeze, State.freezeAsked, hx]
  | frozen => rw [State.callFreeze, State.freezeAsked, hx]
  | restarting => rw [State.callFreeze, State.freezeAsked, hx]

theorem takeFreeze_of_running (h : s.exchange = .running) : takeFreeze p s = s.callFreeze := by rw [takeFreeze, h]

theorem takeFreeze_of_stepping (h : s.exchange = .stepping) : takeFreeze p s = s.callFreeze := by rw [takeFreeze, h]

theorem takeFreeze_of_freezing (h : s.exchange = .freezing) : takeFreeze p s = s := by rw [takeFreeze, h]

theorem takeFreeze_of_frozen (h : s.exchange = .frozen) : takeFreeze p s = s.post p .done := by rw [takeFreeze, h]

end Freezing

/-- Settles O41: the Control Unit's answer to a FREEZE, by the exchange state. -/
theorem freezeByExchangeState : Obligations.FreezeByExchangeState := by
  intro s p n hready htoken waiting
  have taken {t : State} (e : takeFreeze p waiting = t) (hr : t.reports = s.reports) : exec (.freeze p n) s = .next t :=
    cycle_token_taken hready htoken (by decide) (fun _ => rfl) e hr
  refine ⟨fun hx hf hd => ?_, fun hx hf => ?_, fun hx => ?_, fun hx => ?_, fun hx h => ?_, fun k hx hf hd ht => ?_⟩
  · exact taken ((takeFreeze_of_running (s := waiting) hx).trans (callFreeze_of_idle hx hf hd)) rfl
  · exact taken ((takeFreeze_of_running (s := waiting) hx).trans (callFreeze_of_running hx hf)) rfl
  · exact taken (takeFreeze_of_freezing (s := waiting) hx) rfl
  · exact taken ((takeFreeze_of_frozen (s := waiting) hx).trans (post_busyWith s p .freeze n .done)) rfl
  · have goesOn : s.flight.isSome = true ∨ ∀ k, s.task ≠ some (.drain k) := h.imp_right fun ⟨i, ht⟩ k => by simp [ht]
    exact taken ((takeFreeze_of_stepping (s := waiting) hx).trans (callFreeze_of_going_on hx goesOn)) rfl
  · exact taken ((takeFreeze_of_stepping (s := waiting) hx).trans (callFreeze_of_drain hx hf hd ht)) rfl

end Sys2Proof.FreezeAndWatch
end

section
namespace Sys2Proof.FreezeAndWatch
open Sys2Proof Sys2Proof.Machine Sys2Proof.Publication Sys2Proof.Views

/-! ### STEP and RESUME (R152, R154) -/

section StepAndResume
variable {s : State} {p : Port} {k : SlotIx} {ks : List SlotIx}

theorem takeStepCommand_of_not_frozen (hx : s.exchange ≠ .frozen) : takeStepCommand p s = s.refuse p .notFrozen := by
  unfold takeStepCommand
  split
  · next h => exact absurd h hx
  all_goals rfl

theorem takeStepCommand_of_ripe (hx : s.exchange = .frozen) (hr : s.ripe = k :: ks) :
    takeStepCommand p s = { s with exchange := .stepping, task := some (.step (.ripe k)) } := by
  simp [takeStepCommand, hx, hr]

theorem takeStepCommand_of_head {o : Offer} {rest : List Offer} (hx : s.exchange = .frozen) (hr : s.ripe = [])
    (hq : s.queue = o :: rest) :
    takeStepCommand p s = { s with exchange := .stepping, task := some (.step (.head o.order)) } := by
  simp [takeStepCommand, hx, hr, hq]

theorem takeStepCommand_of_nothing (hx : s.exchange = .frozen) (hr : s.ripe = []) (hq : s.queue = []) :
    takeStepCommand p s = s.refuse p .nothingQueued := by
  simp [takeStepCommand, hx, hr, hq]

theorem takeResume_of_not_frozen (hx : s.exchange ≠ .frozen) : takeResume p s = s.refuse p .notFrozen := by
  unfold takeResume
  split
  · next h => exact absurd h hx
  all_goals rfl

theorem takeResume_of_ripe (hx : s.exchange = .frozen) (hr : s.ripe = k :: ks) :
    takeResume p s = { s with exchange := .stepping, task := some (.drain k) } := by
  simp [takeResume, hx, hr]

theorem takeResume_of_no_ripe (hx : s.exchange = .frozen) (hr : s.ripe = []) :
    takeResume p s = { s with exchange := .running }.post p .done := by
  simp [takeResume, hx, hr]

end StepAndResume

/-- Settles O42: STEP and RESUME outside FROZEN, and in FROZEN by the ripe list and the queue. -/
theorem stepAndResumeLeaveFrozen : Obligations.StepAndResumeLeaveFrozen := by
  intro s p n hready htoken
  have stepTaken {t : State} (e : takeStepCommand p (s.busyWith p .step n .taken) = t) (hr : t.reports = s.reports) :
      exec (.step p n) s = .next t := cycle_token_taken hready htoken (by decide) (fun _ => rfl) e hr
  have stepDenied {r : Result} (e : takeStepCommand p (s.busyWith p .step n .taken) = State.refuse _ p r)
      (hr : r.penalised = false) : exec (.step p n) s = .next (s.answered p r) :=
    cycle_token_denied hready htoken (by decide) (fun _ => rfl) e hr
  refine ⟨fun hx => ⟨?_, ?_⟩, fun hx => ⟨fun k ks hr => ⟨?_, ?_⟩, fun hr => ?_, fun o rest hr hq => ?_, fun hr hq => ?_⟩⟩
  · exact stepDenied (takeStepCommand_of_not_frozen hx) rfl
  · exact cycle_token_denied hready htoken (by decide) (fun _ => rfl) (takeResume_of_not_frozen hx) rfl
  · exact stepTaken (takeStepCommand_of_ripe hx hr) rfl
  · exact cycle_token_taken hready htoken (by decide) (fun _ => rfl) (takeResume_of_ripe hx hr) rfl
  · exact cycle_token_done (X := { s with exchange := .running }) hready htoken (by decide) (fun _ => rfl)
      (takeResume_of_no_ripe hx hr) rfl
  · exact stepTaken (takeStepCommand_of_head hx hr hq) rfl
  · exact stepDenied (takeStepCommand_of_nothing hx hr hq) rfl

/-! ### INSPECT (R157) -/

section Inspect
variable {s : State} {p : Port} {n : Byte} {o : Offer}

theorem indexOfArg_of_le {w : Word} (h : w.toNat ≤ 7) : indexOfArg w = some (BitVec.ofNat 3 w.toNat) := by
  have low : w.extractLsb' 0 3 = BitVec.ofNat 3 w.toNat := by
    apply BitVec.eq_of_toNat_eq
    rw [BitVec.extractLsb'_toNat, Nat.shiftRight_zero, BitVec.toNat_ofNat]
  rw [indexOfArg, if_pos h, low]

theorem indexOfArg_of_gt {w : Word} (h : 7 < w.toNat) : indexOfArg w = none := if_neg (Nat.not_le.mpr h)

theorem toNat_index {w : Word} (h : w.toNat ≤ 7) : (BitVec.ofNat 3 w.toNat).toNat = w.toNat := by
  rw [BitVec.toNat_ofNat, Nat.mod_eq_of_lt (by omega)]

/-- A port's maintenance record is written while its command is with a block (R156). -/
theorem maintenance_busyWith (s : State) (p : Port) (c : Command) (n : Byte) (m : Maintenance) :
    (s.busyWith p c n .taken).modPort p (fun u => { u with maintenance := m }) =
      ({ s with ports := s.ports.set p { s.port p with maintenance := m } } : State).busyWith p c n .taken := by
  simp [State.modPort, State.busyWith, State.port]

theorem takeInspect_of_not_frozen (hx : s.exchange ≠ .frozen) : takeInspect p s = s.refuse p .notFrozen := if_pos hx

theorem takeInspect_of_bad (hx : s.exchange = .frozen) (h : 7 < (s.port p).arg0.toNat) :
    takeInspect p s = s.refuse p .badArgument := by
  simp [takeInspect, hx, indexOfArg_of_gt h]

theorem takeInspect_of_no_entry (hx : s.exchange = .frozen) (h : (s.port p).arg0.toNat ≤ 7)
    (hq : s.queue.length ≤ (s.port p).arg0.toNat) : takeInspect p s = s.refuse p .nothingQueued := by
  rw [takeInspect, if_neg (not_not.mpr hx), indexOfArg_of_le h]
  dsimp only
  rw [toNat_index h, List.getElem?_eq_none hq]

theorem takeInspect_of_entry (hx : s.exchange = .frozen) (h : (s.port p).arg0.toNat ≤ 7)
    (ho : s.queue[(s.port p).arg0.toNat]? = some o) :
    takeInspect p s =
      (s.modPort p fun u =>
        { u with maintenance := .inspect (s.inspection (BitVec.ofNat 3 (s.port p).arg0.toNat) o) }).post p .done := by
  rw [takeInspect, if_neg (not_not.mpr hx), indexOfArg_of_le h]
  dsimp only
  rw [toNat_index h, ho]

/-- An echo shows length 0, and a value of length 0 shows data word 0 (R157). -/
theorem inspection_eq (s : State) (i : BitVec 3) (o : Offer) :
    s.inspection i o =
      { position := i, queueCount := s.queue.length, ripeCount := s.ripe.length, source := o.source, slot := o.slot,
        length := if o.source ≠ .exchange then o.length else 0#4,
        word0 := if o.source ≠ .exchange ∧ o.length ≠ 0#4 then o.data.get ⟨0, by decide⟩ else 0#16, stamp := o.stamp,
        snapshot := o.snapshot, passed := o.passed } := by
  by_cases echo : o.source = .exchange <;> by_cases empty : o.length = 0#4 <;>
    simp [State.inspection, Offer.isEcho, echo, empty]

end Inspect

/-- Settles O43: INSPECT outside FROZEN, and in FROZEN by the range of its position and by whether an entry stands there. -/
theorem inspectCopiesAnEntry : Obligations.InspectCopiesAnEntry := by
  intro s p n hready htoken a
  have arg : ((s.busyWith p .inspect n .taken).port p).arg0 = a := by rw [port_busyWith]
  refine ⟨fun hx => ?_, fun hx => ⟨fun ha hb => ?_, fun ha hq => ?_, fun o ha ho => ?_⟩⟩
  · exact cycle_token_denied hready htoken (by decide) (fun _ => rfl) (takeInspect_of_not_frozen hx) rfl
  · exact cycle_token_refused hready htoken hb (by decide) (fun _ => rfl) (takeInspect_of_bad hx (by rwa [arg])) rfl
  · exact cycle_token_denied hready htoken (by decide) (fun _ => rfl)
      (takeInspect_of_no_entry hx (by rwa [arg]) (by rwa [arg])) rfl
  · intro shown record
    have entry : (s.busyWith p .inspect n .taken).queue[((s.busyWith p .inspect n .taken).port p).arg0.toNat]? = some o := by
      rwa [arg]
    refine cycle_token_done (X := { s with ports := s.ports.set p { s.port p with maintenance := .inspect record } }) hready
      htoken (by decide) (fun _ => rfl) ?_ rfl
    rw [takeInspect_of_entry (by exact hx) (by rwa [arg]) entry, arg, inspection_eq]
    exact congrArg (fun t : State => t.post p .done) (maintenance_busyWith s p .inspect n (.inspect record))

end Sys2Proof.FreezeAndWatch
end

section
namespace Sys2Proof.FreezeAndWatch
open Sys2Proof Sys2Proof.Machine Sys2Proof.Publication Sys2Proof.Views

/-! ### The arguments of ARM_WATCH (R160, R176) -/

section WatchArguments
variable {a b c w : Word} {slot : Option SlotIx} {source : Option Source} {act : WatchAction}

theorem toNat_bits (w : Word) (lo len : Nat) : (w.extractLsb' lo len).toNat = w.toNat / 2 ^ lo % 2 ^ len := by
  rw [BitVec.extractLsb'_toNat, Nat.shiftRight_eq_div_pow]

theorem watchSlotOfArg_of_range (h : slot = none ∧ w = 0x00FF#16 ∨ ∃ k, slot = some k ∧ w.toNat = k.val) :
    watchSlotOfArg w = some slot := by
  rcases h with ⟨rfl, rfl⟩ | ⟨k, rfl, hk⟩
  · rfl
  · have named : w ≠ 0x00FF#16 := by
      rintro rfl
      have := k.isLt
      simp at hk
      omega
    simp [watchSlotOfArg, named, hk]

theorem watchSlotOfArg_of_bad (h : 95 < w.toNat) (hany : w ≠ 0x00FF#16) : watchSlotOfArg w = none := by
  simp [watchSlotOfArg, hany, Nat.succ_le_of_lt h]

theorem watchSourceOfArg_of_range
    (h : source = none ∧ w = 5#16 ∨ source = some .exchange ∧ w = 4#16 ∨ ∃ q, source = some (.port q) ∧ w.toNat = q.number) :
    watchSourceOfArg w = some source := by
  rcases h with ⟨rfl, rfl⟩ | ⟨rfl, rfl⟩ | ⟨q, rfl, hq⟩
  · rfl
  · rfl
  · have small : w.toNat < 4 := by rw [hq]; cases q <;> decide
    have h5 : w ≠ 5#16 := by rintro rfl; exact absurd small (by decide)
    have h4 : w ≠ 4#16 := by rintro rfl; exact absurd small (by decide)
    simp [watchSourceOfArg, h5, h4, portOfNumber_some hq]

theorem watchSourceOfArg_of_bad (h : 5 < w.toNat) : watchSourceOfArg w = none := by
  have h5 : w ≠ 5#16 := by rintro rfl; exact absurd h (by decide)
  have h4 : w ≠ 4#16 := by rintro rfl; exact absurd h (by decide)
  simp [watchSourceOfArg, h5, h4, portOfNumber_none (by omega : 3 < w.toNat)]

theorem watchActionOfArg_of_code (h : act.code.toNat = w.toNat / 16 % 4) : watchActionOfArg w = some act := by
  have code : w.extractLsb' 4 2 = act.code := BitVec.eq_of_toNat_eq ((toNat_bits w 4 2).trans h.symm)
  rw [watchActionOfArg, code]
  cases act <;> rfl

theorem watchActionOfArg_of_bad (h : 2 < w.toNat / 16 % 4) : watchActionOfArg w = none := by
  have code : w.extractLsb' 4 2 = 3#2 := by
    apply BitVec.eq_of_toNat_eq
    rw [toNat_bits]
    simp
    omega
  rw [watchActionOfArg, code]
  rfl

theorem kinds_eq_zero_iff : w.extractLsb' 0 4 = 0#4 ↔ w.toNat % 16 = 0 := by
  rw [← BitVec.toNat_inj, toNat_bits, pow_zero, Nat.div_one]
  rfl

theorem watchOfArgs_of_range (ha : watchSlotOfArg a = some slot) (hb : watchSourceOfArg b = some source)
    (hc : watchActionOfArg c = some act) (hk : c.toNat % 16 ≠ 0) :
    watchOfArgs a b c =
      some { armed := true, slot := slot, source := source, onLanding := c.getLsbD 0, onView := c.getLsbD 1,
             onRequest := c.getLsbD 2, onConfig := c.getLsbD 3, action := act, captures := [], matchCount := 0#16 } := by
  simp [watchOfArgs, ha, hb, hc, kinds_eq_zero_iff, hk]

theorem watchOfArgs_of_bad
    (h : 95 < a.toNat ∧ a ≠ 0x00FF#16 ∨ 5 < b.toNat ∨ c.toNat % 16 = 0 ∨ 2 < c.toNat / 16 % 4) : watchOfArgs a b c = none := by
  unfold watchOfArgs
  split
  · next slot source act ha hb hc =>
    rcases h with ⟨h, hany⟩ | h | h | h
    · simp [watchSlotOfArg_of_bad h hany] at ha
    · simp [watchSourceOfArg_of_bad h] at hb
    · exact if_pos (kinds_eq_zero_iff.mpr h)
    · simp [watchActionOfArg_of_bad h] at hc
  · rfl

end WatchArguments

/-! ### ARM_WATCH and READ_CAPTURE (R160, R166) -/

section WatchCommands
variable {s : State} {p : Port}

theorem takeArm_of_watch {w : Watch} (h : watchOfArgs (s.port p).arg0 (s.port p).arg1 (s.port p).arg2 = some w) :
    takeArm p s = { s with watch := w }.post p .done := by
  simp [takeArm, h]

theorem takeArm_of_bad (h : watchOfArgs (s.port p).arg0 (s.port p).arg1 (s.port p).arg2 = none) :
    takeArm p s = s.refuse p .badArgument := by
  simp [takeArm, h]

theorem takeReadCapture_of_bad (h : 7 < (s.port p).arg0.toNat) : takeReadCapture p s = s.refuse p .badArgument := by
  rw [takeReadCapture, indexOfArg_of_gt h]

theorem takeReadCapture_of_index (h : (s.port p).arg0.toNat ≤ 7) :
    takeReadCapture p s =
      (s.modPort p fun u =>
        { u with maintenance := .capture (s.watch.reading (BitVec.ofNat 3 (s.port p).arg0.toNat)) }).post p .done := by
  rw [takeReadCapture, indexOfArg_of_le h]

theorem reading_eq (w : Watch) {a : Word} (h : a.toNat ≤ 7) :
    w.reading (BitVec.ofNat 3 a.toNat) =
      { index := BitVec.ofNat 3 a.toNat, present := w.captures.length, matchCount := w.matchCount, armed := w.armed,
        entry := w.captures[a.toNat]? } := by
  rw [Watch.reading, toNat_index h]

end WatchCommands

/-- Settles O45: ARM_WATCH by its arguments, DISARM_WATCH, and READ_CAPTURE by the range of its index. -/
theorem watchIsArmedDisarmedAndRead : Obligations.WatchIsArmedDisarmedAndRead := by
  intro s p n hready htoken a b c kinds action
  have args (d : Command) : ((s.busyWith p d n .taken).port p).arg0 = a ∧ ((s.busyWith p d n .taken).port p).arg1 = b ∧
      ((s.busyWith p d n .taken).port p).arg2 = c := by rw [port_busyWith]; exact ⟨rfl, rfl, rfl⟩
  have ⟨arm0, arm1, arm2⟩ := args .armWatch
  have ⟨read0, _⟩ := args .readCapture
  refine ⟨fun slot source act ha hb hk hc => ?_, fun bad hb => ?_, ?_, fun bad hb => ?_, fun ha => ?_⟩
  · have watch := watchOfArgs_of_range (watchSlotOfArg_of_range ha) (watchSourceOfArg_of_range hb)
      (watchActionOfArg_of_code hc) hk
    exact cycle_token_done (X := { s with watch := _ }) hready htoken (by decide) (fun _ => rfl)
      (takeArm_of_watch (by rw [arm0, arm1, arm2, watch])) rfl
  · exact cycle_token_refused hready htoken hb (by decide) (fun _ => rfl)
      (takeArm_of_bad (by rw [arm0, arm1, arm2, watchOfArgs_of_bad bad])) rfl
  · exact cycle_token_done (X := { s with watch := { s.watch with armed := false } }) hready htoken (by decide)
      (fun _ => rfl) rfl rfl
  · exact cycle_token_refused hready htoken hb (by decide) (fun _ => rfl) (takeReadCapture_of_bad (by rwa [read0])) rfl
  · intro record
    refine cycle_token_done (X := { s with ports := s.ports.set p { s.port p with maintenance := .capture record } }) hready
      htoken (by decide) (fun _ => rfl) ?_ rfl
    rw [takeReadCapture_of_index (by rwa [read0]), read0, reading_eq _ ha]
    exact congrArg (fun t : State => t.post p .done) (maintenance_busyWith s p .readCapture n (.capture record))

end Sys2Proof.FreezeAndWatch
end

section
namespace Sys2Proof.FreezeAndWatch
open Sys2Proof Sys2Proof.Machine Sys2Proof.Publication Sys2Proof.Views Sys2Proof.Requests

/-! ### An act that matches the watch (R162, R163, R164) -/

section Acts
variable {s X : State} {p : Port} {n : Byte} {k : SlotIx} {kind : ActKind} {detail : Bool} {src : Source}

theorem nextCount_eq (w : Watch) : w.nextCount = if w.matchCount = 65535#16 then 65535#16 else w.matchCount + 1#16 := by
  unfold Watch.nextCount
  split
  · next h => rw [h]
  · rfl

/-- An act that is already done takes FREEZE_BEFORE as FREEZE_AFTER (R164). -/
theorem applied_eq (a : WatchAction) (hk : kind ≠ .landing) :
    a.applied kind = if kind ≠ .landing ∧ a = .freezeBefore then .freezeAfter else a := by
  cases kind with
  | landing => exact absurd rfl hk
  | _ => cases a <;> rfl

theorem recordMatch_eq_recorded (hk : kind ≠ .landing) : s.recordMatch kind detail k src = s.recorded kind detail k src := by
  unfold State.recordMatch State.recorded
  simp only [nextCount_eq, applied_eq _ hk, lastOf, List.length_append, List.length_singleton]
  rfl

/-- An act that matches is recorded, and a freezing action asks for a freeze. -/
theorem offerAct_of_catches (hk : kind ≠ .landing) (hd : s.due = []) (hc : s.catches kind k src) :
    s.offerAct kind detail k src = s.noticed kind detail k src := by
  have freezes : (s.recorded kind detail k src).callFreeze = (s.recorded kind detail k src).freezeAsked :=
    callFreeze_eq_freezeAsked hd
  rw [State.offerAct, if_pos (hits_iff_catches.mpr hc), recordMatch_eq_recorded hk, State.noticed, ← freezes]
  cases s.watch.action <;> rfl

/-- What a command comes to whose owning block carries it out, changing `s` to `X`, and then offers the act to a watch that catches
it. -/
theorem cycle_noticed {c : Command} (h : s.ready p) (hc : c ≠ .resetPort)
    (e : takeCommand c p n (s.busyWith p c n .taken) =
      ((X.busyWith p c n .taken).post p .done).offerAct kind detail k (.port p))
    (hr : X.reports = s.reports) (hd : X.due = []) (hw : X.watch = s.watch) (hk : kind ≠ .landing)
    (caught : s.catches kind k (.port p)) :
    cycle p (fun t => t.writeCommand p c n) s = .next ((X.answered p .done).noticed kind detail k (.port p)) := by
  have ⟨⟨_, hrep⟩, _⟩ := h
  have matched : (X.answered p .done).catches kind k (.port p) := by
    have hits : (X.answered p .done).watch.hits kind k (.port p) = true :=
      (congrArg (fun w : Watch => w.hits kind k (.port p)) hw).trans (hits_iff_catches.mpr caught)
    exact hits_iff_catches.mp hits
  have settled : ((X.answered p .done).offerAct kind detail k (.port p)).reports = [] :=
    (congrArg State.reports (State.offerAct_frame _ kind detail k (.port p))).trans (hr.trans hrep)
  rw [cycle_command h hc, e, post_busyWith, State.settle_nil _ settled, offerAct_of_catches (s := X.answered p .done) hk hd matched]

end Acts

/-! ### VIEW (R54, R55) -/

section View
variable {s : State} {p : Port} {n : Byte} {k : SlotIx}

/-- A VIEW granted with a quiet end of the old hold is the new view, answered and offered to the watch. -/
theorem grantView_eq_offerAct (hq : s.endsQuietly p = true) :
    s.grantView p k = ((s.withView p k).post p .done).offerAct .view false k (.port p) := by
  unfold State.grantView
  rw [endHold_of_quiet hq, capture_reclaimDue_unripen]

theorem takeView_of_new (hs : s.checkSlot n = .ok k) (hh : s.holding p k = false) (hl : s.landingMark k = false) :
    takeView p n s = s.grantView p k := by
  simp [takeView, hs, hh, hl]

theorem takeView_of_held (hs : s.checkSlot n = .ok k) (hh : s.holding p k = true) : takeView p n s = s.refreshView p k := by
  simp [takeView, hs, hh]

/-- The state with the view of the held slot `k` captured again; the due list and the ripe list are left (R55). -/
def refreshed (s : State) (p : Port) (k : SlotIx) : State :=
  { s.withView p k with
    due := s.due, ripe := s.ripe
    slots := s.slots.set k { s.slot k with unread := (s.slot k).unread.erase p, missed := (s.slot k).missed.erase p } }

theorem capture_eq_refreshed (s : State) (p : Port) (k : SlotIx) : s.capture p k = refreshed s p k := by
  have hold : s.newHold p k =
      { slot := k, expiry := s.time + 16#32 * s.holdTimeout.setWidth 32, viewState := (s.slot k).viewStateFor p,
        identifier := (s.slot k).config.identifier } := by
    rw [BitVec.mul_comm]
    rfl
  rw [State.capture, hold]
  rfl

theorem refreshView_eq_offerAct :
    s.refreshView p k = ((refreshed s p k).post p .done).offerAct .view true k (.port p) := by
  rw [State.refreshView, capture_eq_refreshed]

/-- The action recorded for a VIEW: RECORD, or else FREEZE_AFTER (R164). -/
theorem action_of_view (a : WatchAction) :
    (if ActKind.view ≠ .landing ∧ a = .freezeBefore then WatchAction.freezeAfter else a) =
      if a = .record then .record else .freezeAfter := by
  cases a <;> rfl

/-- A refresh that the watch catches (R55, R164). -/
theorem exec_view_of_held (h : s.ready p) (hk : k.val = n.toNat) (hs : (s.slot k).state = .opened ∨ (s.slot k).state = .live)
    (hh : s.holding p k = true) (hd : s.due = []) (hc : s.catches .view k (.port p)) :
    exec (.view p n) s = .next (((refreshed s p k).answered p .done).noticed .view true k (.port p)) := by
  have takes : takeView p n (s.busyWith p .view n .taken) = (s.busyWith p .view n .taken).refreshView p k :=
    takeView_of_held (checkSlot_of_taking hk hs) hh
  exact cycle_noticed h (by decide) (takes.trans refreshView_eq_offerAct) rfl hd rfl (by decide) hc

/-- A new VIEW that the watch catches (R54, R164). -/
theorem exec_view_of_new (h : s.ready p) (hk : k.val = n.toNat) (hs : (s.slot k).state = .opened ∨ (s.slot k).state = .live)
    (hh : s.holding p k = false) (hl : s.landingMark k = false) (hq : s.endsQuietly p = true) (hd : s.due = [])
    (hc : s.catches .view k (.port p)) :
    exec (.view p n) s = .next (((s.withView p k).answered p .done).noticed .view false k (.port p)) := by
  have takes : takeView p n (s.busyWith p .view n .taken) = (s.busyWith p .view n .taken).grantView p k :=
    takeView_of_new (checkSlot_of_taking hk hs) hh hl
  have due : (s.withView p k).due = [] := by simp [State.withView, hd]
  exact cycle_noticed h (by decide) (takes.trans (grantView_eq_offerAct hq)) rfl due rfl (by decide) hc

end View

/-! ### REQUEST (R92, R93, R94) -/

section Request
variable {s X : State} {p : Port} {n : Byte} {k : SlotIx}

theorem takeRequest_begins (e : s.checkRequest p n = .ok k) (hr : (s.slot k).requesters = PortSet.empty) :
    takeRequest p n s = ((s.beginRound p k).post p .done).offerAct .request false k (.port p) := by
  rw [takeRequest, e]
  exact if_pos (isEmpty_iff_eq_empty.mpr hr)

theorem takeRequest_joins (e : s.checkRequest p n = .ok k) (hr : (s.slot k).requesters ≠ PortSet.empty) :
    takeRequest p n s = ((s.modSlot k (Slot.addRequester p)).post p .done).offerAct .request true k (.port p) := by
  rw [takeRequest, e]
  exact if_neg (isEmpty_iff_eq_empty.not.mpr hr)

/-- A REQUEST that begins a round and that the watch catches. -/
theorem exec_request_begins (h : s.ready p) (e : s.checkRequest p n = .ok k) (hr : (s.slot k).requesters = PortSet.empty)
    (hX : (s.busyWith p .request n .taken).beginRound p k = X.busyWith p .request n .taken) (hrep : X.reports = s.reports)
    (hd : X.due = []) (hw : X.watch = s.watch) (hc : s.catches .request k (.port p)) :
    exec (.request p n) s = .next ((X.answered p .done).noticed .request false k (.port p)) := by
  refine cycle_noticed h (by decide) ?_ hrep hd hw (by decide) hc
  exact (takeRequest_begins (s := s.busyWith p .request n .taken) e hr).trans (by rw [hX])

/-- A REQUEST that joins a round and that the watch catches. -/
theorem exec_request_joins (h : s.ready p) (e : s.checkRequest p n = .ok k) (hr : (s.slot k).requesters ≠ PortSet.empty)
    (hd : s.due = []) (hc : s.catches .request k (.port p)) :
    exec (.request p n) s =
      .next (({ s with slots := s.slots.set k ((s.slot k).addRequester p) }.answered p .done).noticed .request true k
        (.port p)) :=
  cycle_noticed (X := { s with slots := s.slots.set k ((s.slot k).addRequester p) }) h (by decide)
    (takeRequest_joins (s := s.busyWith p .request n .taken) e hr) rfl hd rfl (by decide) hc

end Request

/-! ### CONFIGURE_SLOT (R9, R10, R11) -/

section Configure
variable {s : State} {p : Port} {n : Byte} {k : SlotIx} {a b c : Word}

theorem number_portOfCode (x : BitVec 2) : (portOfCode x).number = x.toNat := by
  revert x
  decide

/-- The fields of a configuration whose arguments are in range (R9, R176). -/
theorem configOfArgs_fields (ha : a.toNat ≤ 0x0FFF) (hb : b.toNat ≤ 4095) :
    let g := configOfArgs a b c
    g.identifier.toNat = a.toNat ∧ g.freshnessLimit.toNat = b.toNat ∧ g.owner.number = c.toNat % 4 ∧
      (g.kind = .event ↔ c.getLsbD 2 = true) ∧ (g.answer = .autoAnswer ↔ c.getLsbD 3 = true) ∧
      g.maxLength.toNat = (c.toNat / 16) % 16 ∧ g.requestDeadline.toNat = c.toNat / 256 := by
  have := c.isLt
  refine ⟨?_, ?_, ?_, ?_, ?_, toNat_bits c 4 4, ?_⟩
  · exact (toNat_bits a 0 12).trans (by omega)
  · exact (toNat_bits b 0 12).trans (by omega)
  · exact (number_portOfCode _).trans ((toNat_bits c 0 2).trans (by omega))
  · cases h : c.getLsbD 2 <;> simp only [configOfArgs, h] <;> decide
  · cases h : c.getLsbD 3 <;> simp only [configOfArgs, h] <;> decide
  · exact (toNat_bits c 8 8).trans (by omega)

theorem badConfigArgs_of_range (ha : a.toNat ≤ 0x0FFF) (hb : b.toNat ≤ 4095) (h1 : 1 ≤ (c.toNat / 16) % 16)
    (h8 : (c.toNat / 16) % 16 ≤ 8) : badConfigArgs a b c = false := by
  have length : (c.extractLsb' 4 4).toNat = (c.toNat / 16) % 16 := toNat_bits c 4 4
  simp only [badConfigArgs, length, Bool.or_eq_false_iff, decide_eq_false_iff_not]
  omega

theorem identifierInUse_eq_false {i : Ident}
    (h : ∀ j, j ≠ k → (s.slot j).state ≠ .unused → (s.slot j).config.identifier ≠ i) : s.identifierInUse k i = false := by
  rw [State.identifierInUse, List.any_eq_false]
  intro j _
  simp only [Bool.and_eq_true, bne_iff_ne, beq_iff_eq]
  rintro ⟨⟨hj, hs⟩, hi⟩
  exact h j hj hs hi

theorem checkConfigure_of_range (hk : k.val = n.toNat) (hs : (s.slot k).state = .unused)
    (hbad : badConfigArgs (s.port p).arg0 (s.port p).arg1 (s.port p).arg2 = false)
    (hid : s.identifierInUse k (configOfArgs (s.port p).arg0 (s.port p).arg1 (s.port p).arg2).identifier = false) :
    s.checkConfigure p n = .ok k := by
  simp [State.checkConfigure, slotOf_some hk, hs, hbad, hid]

theorem takeConfigure_of_range (e : s.checkConfigure p n = .ok k) :
    takeConfigure p n s =
      ((s.modSlot k fun _ =>
          Slot.configured (configOfArgs (s.port p).arg0 (s.port p).arg1 (s.port p).arg2)
            (!s.inside (configOfArgs (s.port p).arg0 (s.port p).arg1 (s.port p).arg2).owner)).post p .done).offerAct
        .config false k (.port p) := by
  rw [takeConfigure, e]

/-- A CONFIGURE_SLOT that passes its checks and that the watch catches. -/
theorem exec_configureSlot (h : s.ready p) (ht : s.token = some p) (hd : s.due = [])
    (hc : s.catches .config k (.port p)) (e : s.checkConfigure p n = .ok k) :
    let g := configOfArgs (s.port p).arg0 (s.port p).arg1 (s.port p).arg2
    exec (.configureSlot p n) s =
      .next (({ s with slots := s.slots.set k (Slot.configured g (!s.inside g.owner)) }.answered p .done).noticed .config false k
        (.port p)) := by
  intro g
  have args : ((s.busyWith p .configureSlot n .taken).port p).arg0 = (s.port p).arg0 ∧
      ((s.busyWith p .configureSlot n .taken).port p).arg1 = (s.port p).arg1 ∧
      ((s.busyWith p .configureSlot n .taken).port p).arg2 = (s.port p).arg2 := by rw [port_busyWith]; exact ⟨rfl, rfl, rfl⟩
  obtain ⟨arg0, arg1, arg2⟩ := args
  have checked : (s.busyWith p .configureSlot n .taken).checkConfigure p n = .ok k := by
    unfold State.checkConfigure
    dsimp only
    rw [arg0, arg1, arg2]
    exact e
  have configured := takeConfigure_of_range checked
  rw [arg0, arg1, arg2] at configured
  exact cycle_noticed (X := { s with slots := s.slots.set k (Slot.configured g (!s.inside g.owner)) }) h (by decide)
    ((if_pos ht).trans configured) rfl hd rfl (by decide) hc

end Configure

/-! ### RETIRE_SLOT with nothing waiting on the slot (R14, R16) -/

section Retire
variable {s : State} {p : Port} {n : Byte} {k : SlotIx}

theorem modSlot_modSlot (f g : Slot → Slot) : (s.modSlot k f).modSlot k g = s.modSlot k fun r => g (f r) := by
  have slots : (s.slots.set k (f (s.slot k))).set k (g ((s.modSlot k f).slot k)) = s.slots.set k (g (f (s.slot k))) := by
    rw [State.slot_modSlot_self, table_set_set]
  exact congrArg (fun slots => { s with slots := slots }) slots

theorem dropEntries_of_none (h : ∀ o ∈ s.queue, o.slot ≠ k) : s.dropEntries k = s := by
  have none : s.queue.filter (fun o => o.slot == k) = [] := by simpa [List.filter_eq_nil_iff] using h
  have all : s.queue.filter (fun o => o.slot != k) = s.queue := by simpa [List.filter_eq_self] using h
  rw [State.dropEntries, none, all]
  rfl

theorem dropParked_of_none (hd : s.due = []) (hp : (s.slot k).parked = none) : s.dropParked k = s := by
  simp [State.dropParked, State.reclaimDue, hd, hp]

theorem timeOutRequesters_of_none (h : (s.slot k).requesters = PortSet.empty) :
    s.timeOutRequesters k = s.modSlot k Slot.endRound := by
  have untold : s.tell PortSet.empty .requestTimeout k = s := foldl_eq_self _ _ fun q _ => by rw [PortSet.has_empty]; rfl
  rw [State.timeOutRequesters, h, untold]

/-- The record of a slot that is retired with nothing waiting on it. -/
def retiringRecord (r : Slot) : Slot :=
  { r with state := .retiring, requesters := PortSet.empty, deadline := none, freshness := none }

theorem retireSteps_of_nothing_waiting (hq : ∀ o ∈ s.queue, o.slot ≠ k) (hd : s.due = []) (hp : (s.slot k).parked = none)
    (hr : (s.slot k).requesters = PortSet.empty) : s.retireSteps k = s.modSlot k retiringRecord := by
  have record : (s.modSlot k fun r => { r with state := .retiring }).slot k = { s.slot k with state := .retiring } :=
    State.slot_modSlot_self s k _
  unfold State.retireSteps
  dsimp only
  rw [dropEntries_of_none (by exact hq), dropParked_of_none (by exact hd) (by rw [record]; exact hp),
    timeOutRequesters_of_none (by rw [record]; exact hr), modSlot_modSlot, modSlot_modSlot]
  rfl

theorem testRetirement_of_use (h : (∃ q, s.holding q k = true) ∨ s.landingMark k = true) : s.testRetirement k = s := by
  refine if_neg ?_
  rcases h with h | h
  · simp [State.retirementDue, holdSet_isEmpty_eq_false h]
  · simp [State.retirementDue, h]

theorem testRetirement_of_done (hs : (s.slot k).state = .retiring) (hh : ∀ q, s.holding q k = false)
    (hl : s.landingMark k = false) (hr : s.roomToRetire k) : s.testRetirement k = s.retired k := by
  have due : s.retirementDue k = true := by simp [State.retirementDue, hs, (s.holdSet_isEmpty k).mpr hh, hl]
  rw [State.testRetirement, if_pos due, completeRetirement_of_room hr]

/-- Who subscribes to a slot hangs on its configuration alone. -/
theorem subscribes_modSlot {f : Slot → Slot} (hf : (f (s.slot k)).config = (s.slot k).config) (q : Port) :
    (s.modSlot k f).subscribes k q = s.subscribes k q := by
  rw [State.subscribes, State.slot_modSlot_self, hf]
  rfl

theorem roomToRetire_modSlot {f : Slot → Slot} (hf : (f (s.slot k)).config = (s.slot k).config) (h : s.roomToRetire k) :
    (s.modSlot k f).roomToRetire k := by
  intro q hq
  rw [subscribes_modSlot hf] at hq
  exact h q hq

/-- The completion of a retirement leaves nothing of a record but what its configuration has told the subscribers. -/
theorem retired_modSlot {f : Slot → Slot} (hf : (f (s.slot k)).config = (s.slot k).config) :
    (s.modSlot k f).retired k = s.retired k := by
  have slots : ((s.modSlot k f).retired k).slots = (s.retired k).slots := table_set_set _ _ _ _
  have notes : ((s.modSlot k f).retired k).notes = (s.retired k).notes := by
    simp only [State.retired, subscribes_modSlot hf, State.slot_modSlot_self, hf]
    rfl
  show { s.retired k with slots := ((s.modSlot k f).retired k).slots, notes := ((s.modSlot k f).retired k).notes } = s.retired k
  rw [slots, notes]

theorem takeRetire_of_taking (hs : s.checkSlot n = .ok k) :
    takeRetire p n s = (((s.retireSteps k).testRetirement k).post p .done).offerAct .config true k (.port p) := by
  rw [takeRetire, State.checkRetire, hs]

end Retire

section RetireCommand
variable {s X : State} {p : Port} {n : Byte} {k : SlotIx}
variable (h : s.ready p) (ht : s.token = some p) (hk : k.val = n.toNat)
variable (hs : (s.slot k).state = .opened ∨ (s.slot k).state = .live)
variable (hq : ∀ o ∈ s.queue, o.slot ≠ k) (hd : s.due = []) (hp : (s.slot k).parked = none)
variable (hr : (s.slot k).requesters = PortSet.empty) (hc : s.catches .config k (.port p))
include h ht hk hs hq hd hp hr hc

/-- A RETIRE_SLOT that the watch catches, with nothing waiting on the slot: `X` is what the test for completion leaves. -/
theorem exec_retireSlot
    (hX : ((s.busyWith p .retireSlot n .taken).modSlot k retiringRecord).testRetirement k = X.busyWith p .retireSlot n .taken)
    (hrep : X.reports = s.reports) (hdue : X.due = []) (hw : X.watch = s.watch) :
    exec (.retireSlot p n) s = .next ((X.answered p .done).noticed .config true k (.port p)) := by
  refine cycle_noticed h (by decide) ?_ hrep hdue hw (by decide) hc
  have steps : (s.busyWith p .retireSlot n .taken).retireSteps k =
      (s.busyWith p .retireSlot n .taken).modSlot k retiringRecord := retireSteps_of_nothing_waiting hq hd hp hr
  have retires := takeRetire_of_taking (s := s.busyWith p .retireSlot n .taken) (p := p) (checkSlot_of_taking hk hs)
  rw [steps, hX] at retires
  exact (if_pos ht).trans retires

/-- A slot that is held, or on which a landing is in progress, stays RETIRING. -/
theorem exec_retireSlot_of_use (use : (∃ q, s.holding q k = true) ∨ s.landingMark k = true) :
    exec (.retireSlot p n) s = .next (((s.modSlot k retiringRecord).answered p .done).noticed .config true k (.port p)) :=
  exec_retireSlot h ht hk hs hq hd hp hr hc
    (testRetirement_of_use (s := (s.busyWith p .retireSlot n .taken).modSlot k retiringRecord) use) rfl hd rfl

/-- A slot that is not in use is retired at once, before the act is offered. -/
theorem exec_retireSlot_of_done (hh : ∀ q, s.holding q k = false) (hl : s.landingMark k = false) (hroom : s.roomToRetire k) :
    exec (.retireSlot p n) s = .next (((s.retired k).answered p .done).noticed .config true k (.port p)) := by
  have ⟨_, hidle, _⟩ := h
  have emptied : (s.modSlot k retiringRecord).retired k = s.retired k := retired_modSlot rfl
  have completes : ((s.busyWith p .retireSlot n .taken).modSlot k retiringRecord).testRetirement k =
      (s.retired k).busyWith p .retireSlot n .taken := by
    rw [← emptied, ← retired_busyWith (s := s.modSlot k retiringRecord) .retireSlot n hidle]
    exact testRetirement_of_done (congrArg Slot.state (State.slot_modSlot_self _ k retiringRecord)) hh hl
      (roomToRetire_modSlot (s := s.busyWith p .retireSlot n .taken) (f := retiringRecord) rfl hroom)
  exact exec_retireSlot h ht hk hs hq hd hp hr hc completes rfl hd rfl

end RetireCommand

/-- Settles O47: each act is its own effect, answered and offered to the watch, and the watch's table gives the rest. -/
theorem watchMeetsAView : Obligations.WatchMeetsAView := by
  refine ⟨?_, ?_⟩
  · intro s p n k hready hk hs hh hx hd harmed hon hslot hsource count entry kept viewed t
    have noticed : exec (.view p n) s = .next ((viewed.answered p .done).noticed .view true k (.port p)) :=
      exec_view_of_held hready hk hs hh hd ⟨harmed, hon, hslot, hsource⟩
    have recorded : (viewed.answered p .done).recorded .view true k (.port p) = t := by
      have slot : (viewed.answered p .done).slot k =
          { s.slot k with unread := (s.slot k).unread.erase p, missed := (s.slot k).missed.erase p } :=
        Table.get_set_self s.slots k _
      rw [State.recorded, slot]
      dsimp only
      rw [action_of_view]
      rfl
    have asked : t.freezeAsked = if t.flight.isSome then { t with exchange := .freezing } else t.frozenNow :=
      freezeAsked_of_running hx
    refine ⟨fun ha => ?_, fun ha hf => ?_, fun ha hf => ?_⟩
    · rw [noticed, State.noticed, if_pos (by exact ha), recorded]
    · rw [noticed, State.noticed, if_neg (by exact ha), recorded, asked, if_pos (by exact hf)]
    · rw [noticed, State.noticed, if_neg (by exact ha), recorded, asked, if_neg (Option.not_isSome_iff_eq_none.mpr (by exact hf))]
  · intro s p n k hready hk hd r src
    refine ⟨fun hs hc hh hl hq => ?_, fun hs hc ha ho hz => ?_, fun ht hc => ⟨fun hs => ?_, fun hs use hq hp hr hdl => ?_,
      fun hs hh hl hq hp hr hroom => ?_⟩⟩
    · exact exec_view_of_new hready hk hs hh hl hq hd hc
    · intro joined begun echo ownerMay exchangeMay
      have passes := checkRequest_ok (s := s) (p := p) (by simp [ha]) hk hs ho hz
      have byOwner : ownerMay → s.checkRequest p n = .ok k := fun ⟨mode, stays⟩ =>
        passes (fun _ => stays) fun h => absurd (mode.symm.trans h) (by decide)
      have byExchange (room : r.requesters = PortSet.empty → s.queue.length < 8) : exchangeMay → s.checkRequest p n = .ok k :=
        fun ⟨mode, hlive⟩ => passes (fun h => absurd (mode.symm.trans h) (by decide)) fun _ => ⟨hlive, room⟩
      refine ⟨fun may he hroom => ?_, fun may he hlen => ?_, fun may he => ?_⟩
      · exact exec_request_begins hready (byOwner may) he (beginRound_of_ownerAnswers (by exact may.1) (by exact hroom)) rfl hd
          rfl hc
      · exact exec_request_begins hready (byExchange (fun _ => hlen) may) he (beginRound_of_autoAnswer (by exact may.1)) rfl hd
          rfl hc
      · exact exec_request_joins hready (may.elim byOwner (byExchange fun h => absurd h he)) he hd hc
    · intro a b c ha hb h1 h8 hid
      have fields := configOfArgs_fields (c := c) ha hb
      have ⟨identifier, _⟩ := fields
      have fresh : s.identifierInUse k (configOfArgs a b c).identifier = false :=
        identifierInUse_eq_false fun j hj hs e => hid j hj hs (by rw [e, identifier])
      have ok := checkConfigure_of_range (p := p) hk hs (badConfigArgs_of_range ha hb h1 h8) fresh
      exact ⟨configOfArgs a b c, exec_configureSlot hready ht hd hc ok, fields⟩
    · have record : retiringRecord r = { r with state := .retiring, freshness := none } := by
        rw [retiringRecord, ← hr, ← hdl]
      rw [← record]
      exact exec_retireSlot_of_use hready ht hk hs hq hd hp hr hc use
    · exact exec_retireSlot_of_done hready ht hk hs hq hd hp hr hc hh hl hroom

end Sys2Proof.FreezeAndWatch
end

section
namespace Sys2Proof.PortInterface
open Sys2Proof Sys2Proof.Machine

/-! ### Device reset (R181) -/

/-- Every event but an edge of a reset line is a bus cycle of a port or an event of the part's own blocks. -/
theorem exec_eq_event {c : Instr} (hd : c ≠ .deviceReset) (hr : c ≠ .deviceResetRelease) (hp : ∀ p, c ≠ .portReset p) :
    ∃ f, ∀ s, exec c s = event f s := by
  cases c with
  | deviceReset => exact absurd rfl hd
  | deviceResetRelease => exact absurd rfl hr
  | portReset p => exact absurd rfl (hp p)
  | _ => exact ⟨_, fun _ => rfl⟩

section InReset
variable {s : State} {p : Port}

/-- A high PxRST_n falls while RESET_n is low: the port reset has no further effect. -/
theorem exec_portReset_fall (hs : s.inReset = true) (hl : s.lineLow.has p = false) :
    exec (.portReset p) s = .next { s with lineLow := s.lineLow.insert p } :=
  (if_neg (by simp [hl])).trans (event_inReset (s := { s with lineLow := s.lineLow.insert p }) hs)

/-- The rise of a low PxRST_n changes its level alone, whatever RESET_n is. -/
theorem exec_portReset_rise (hl : s.lineLow.has p = true) :
    exec (.portReset p) s = .next { s with lineLow := s.lineLow.erase p } := if_pos hl

theorem attention_inReset (hs : s.inReset = true) (p : Port) : s.attention p = false := by
  simp [State.attention, State.takesCycles, hs]

theorem exec_inReset {c : Instr} (hs : s.inReset = true) (hd : c ≠ .deviceReset) (hr : c ≠ .deviceResetRelease)
    (hp : ∀ p, c ≠ .portReset p) : exec c s = .next s := by
  obtain ⟨f, hf⟩ := exec_eq_event hd hr hp
  exact (hf s).trans (event_inReset hs)

end InReset

/-- Settles O52: the edges of RESET_n and of the lines PxRST_n by their meanings; every other event is held off by `event`. -/
theorem deviceResetClearsAndHolds : Obligations.DeviceResetClearsAndHolds := fun _ =>
  ⟨rfl, rfl, fun hs => ⟨fun p => ⟨exec_portReset_fall hs, exec_portReset_rise, attention_inReset hs p⟩,
    fun _ hd hr hp => exec_inReset hs hd hr hp⟩⟩

end Sys2Proof.PortInterface
end

section
namespace Sys2Proof.PortInterface
open Sys2Proof Sys2Proof.Machine Sys2Proof.PortHealth

/-! ### Words of COMMAND (R169, R171, R176) -/

section Words
variable {i : Instr} {p : Port} {c : Command} {n : Byte} {w : Word}

theorem encodeCommandWord_of_command (h : i.command? = some (p, c, n)) : encodeCommandWord i = some (p, c.code ++ n) := by
  unfold encodeCommandWord
  rw [h]

/-- An event has a word when it is the write of a defined command or of an undefined code. -/
theorem encodeCommandWord_cases (h : encodeCommandWord i = some (p, w)) :
    (∃ c n, i.command? = some (p, c, n) ∧ w = c.code ++ n) ∨ ∃ code n, i = .undefinedCommand p code n ∧ w = code ++ n := by
  unfold encodeCommandWord at h
  split at h
  · next q c n command =>
    cases h
    exact .inl ⟨c, n, command, rfl⟩
  · split at h
    · next q code n _ =>
      cases h
      exact .inr ⟨code, n, rfl, rfl⟩
    · cases h

/-- A word with a defined code spells that command, with the word's slot number, as an event of its own row. -/
theorem decodeCommandWord_of_code (p : Port) (h : Command.ofCode (commandCode w) = some c) :
    (decodeCommandWord p w).command? = some (p, c, commandSlot w) ∧ (decodeCommandWord p w).wellFormed = true := by
  simp only [decodeCommandWord, h]
  cases c <;> exact ⟨rfl, rfl⟩

theorem decodeCommandWord_of_undefined (p : Port) (h : Command.ofCode (commandCode w) = none) :
    decodeCommandWord p w = .undefinedCommand p (commandCode w) (commandSlot w) := by
  simp only [decodeCommandWord, h]

/-- The word of a defined command spells it: an event with no command is no case, and in every other row the code finds the command. -/
theorem decodeCommandWord_command (h : i.command? = some (p, c, n)) : decodeCommandWord p (c.code ++ n) = i := by
  simp only [decodeCommandWord, Notes.commandCode_append, commandSlot_append, ofCode_code]
  cases i <;> cases h <;> rfl

theorem decodeCommandWord_undefined {code : Byte} (p : Port) (n : Byte) (h : Command.ofCode code = none) :
    decodeCommandWord p (code ++ n) = .undefinedCommand p code n := by
  have undefined : Command.ofCode (commandCode (code ++ n)) = none := by rw [Notes.commandCode_append, h]
  rw [decodeCommandWord_of_undefined p undefined, Notes.commandCode_append, commandSlot_append]

end Words

/-- Settles O3: both directions by whether the code is a command's. -/
theorem commandWordsRoundTrip : Obligations.CommandWordsRoundTrip := by
  refine ⟨fun i p w own encoded => ?_, fun p w => ?_⟩
  · obtain ⟨c, n, command, rfl⟩ | ⟨code, n, rfl, rfl⟩ := encodeCommandWord_cases encoded
    · exact decodeCommandWord_command command
    · exact decodeCommandWord_undefined p n (Option.isNone_iff_eq_none.mp own)
  · cases h : Command.ofCode (commandCode w) with
    | none =>
      rw [decodeCommandWord_of_undefined p h]
      refine ⟨?_, Option.isNone_iff_eq_none.mpr h⟩
      show some (p, commandCode w ++ commandSlot w) = _
      rw [commandCode_append_commandSlot]
    | some c =>
      obtain ⟨command, own⟩ := decodeCommandWord_of_code p h
      refine ⟨?_, own⟩
      rw [encodeCommandWord_of_command command, code_of_ofCode h, commandCode_append_commandSlot]

theorem exec_registerWrite_command (s : State) (p : Port) (w : Word) :
    exec (.registerWrite p 0#6 w) s = cycle p (fun t => t.writeCommandWord p w) s := by
  rw [Publication.exec_registerWrite_eq]
  simp only [execRegisterWrite, if_true]

theorem exec_undefinedCommand (s : State) (p : Port) (code n : Byte) :
    exec (.undefinedCommand p code n) s = cycle p (fun t => t.writeCommandWord p (code ++ n)) s := rfl

/-- Settles O4: all three are the write of the word to the command unit. -/
theorem writeToCommandIsItsEvent : Obligations.WriteToCommandIsItsEvent := by
  intro p w s
  rw [exec_decodeCommandWord, exec_registerWrite_command, exec_undefinedCommand, commandCode_append_commandSlot]
  exact ⟨rfl, rfl⟩

end Sys2Proof.PortInterface
end

section
namespace Sys2Proof.Machine

/-! ### The queue of a step (log entry 1) -/

section Queue
variable {s : State}

theorem step_of_pending_nil (h : s.pending = []) : step s = .next s := by
  simp only [step, h]

theorem step_of_pending_cons {c : Instr} {rest : List Instr} (h : s.pending = c :: rest) :
    step s = exec c { s with pending := rest } := by
  simp only [step, h]

end Queue

/-- Settles O1: by whether a command waits. -/
theorem stepRunsTheFrontOfTheQueue : Obligations.StepRunsTheFrontOfTheQueue :=
  ⟨fun _ _ _ => step_of_pending_cons rfl, fun _ => step_of_pending_nil⟩

end Sys2Proof.Machine
end

section
namespace Sys2Proof.Commands
open Sys2Proof Sys2Proof.Machine Sys2Proof.Publication Sys2Proof.Views Sys2Proof.Requests Sys2Proof.FreezeAndWatch

/-! ### Commands that their owning block refuses, or answers later (R118, R143, R172) -/

section Refusals
variable {s : State} {p : Port} {n : Byte} {c : Command} {r : Result}

/-- What a penalised refusal comes to, for a port that bears its penalty. -/
theorem cycle_refused_penalised (h : s.ready p) (hb : s.bears p 4) (hc : c ≠ .resetPort)
    (e : takeCommand c p n (s.busyWith p c n .taken) = (s.busyWith p c n .taken).refuse p r) (hr : r.penalised = true) :
    cycle p (fun t => t.writeCommand p c n) s = .next ((s.answered p r).fined p 4) := by
  rw [cycle_command h hc, e, settle_refuse_penalised h hb hr]

/-- What a refusal without a penalty comes to. -/
theorem cycle_refused_plain (h : s.ready p) (hc : c ≠ .resetPort)
    (e : takeCommand c p n (s.busyWith p c n .taken) = (s.busyWith p c n .taken).refuse p r) (hr : r.penalised = false) :
    cycle p (fun t => t.writeCommand p c n) s = .next (s.answered p r) := by
  rw [cycle_command h hc, e, settle_refuse_plain h hr]

end Refusals

/-! ### The beginning of a landing (R18, R37, R38) -/

section BeginLanding
variable {o : Offer} {r : Slot}

/-- The data words that a landing of `o` leaves in its slot record. -/
def landedData (o : Offer) (r : Slot) : Table 8 Word := if o.isEcho then r.value.data else trimData o.length o.data

theorem isEcho_eq_decide (o : Offer) : o.isEcho = decide (o.source = .exchange) := by
  simp [Offer.isEcho, beq_eq_decide]

theorem landedData_get (o : Offer) (r : Slot) (i : Fin 8) :
    (landedData o r).get i =
      if o.source = .exchange then r.value.data.get i else if i.val < o.length.toNat then o.data.get i else 0#16 := by
  by_cases h : o.source = .exchange
  · simp [landedData, isEcho_eq_decide, h]
  · simpa [landedData, isEcho_eq_decide, h] using trimData_get o.length o.data i

theorem land_eq (o : Offer) (r : Slot) :
    r.land o =
      { r with
        state := if r.state = .opened then .live else r.state
        value := { length := if o.source = .exchange then r.value.length else o.length, data := landedData o r,
                   sequence := if r.value.sequence = 65535#16 then 1#16 else r.value.sequence + 1#16,
                   stamp := o.stamp, echo := decide (o.source = .exchange) } } := by
  unfold Slot.land landedData
  simp only [isEcho_eq_decide, decide_eq_true_eq]
  cases r.state <;> rfl

end BeginLanding

/-- Settles O15: the record is `Slot.land`, whose data words are `landedData`. -/
theorem landingWritesTheSlot : Obligations.LandingWritesTheSlot := by
  intro s o
  refine ⟨landedData o (s.slot o.slot), ?_, landedData_get o (s.slot o.slot)⟩
  rw [State.beginLanding, State.modSlot, land_eq]

/-! ### VIEW (R8, R54, R55, R56) -/

section View
variable {s : State} {p : Port} {n : Byte} {k : SlotIx}

theorem takeView_of_error {r : Result} (e : s.checkSlot n = .error r) : takeView p n s = s.refuse p r := by
  simp [takeView, e]

theorem takeView_of_landing (e : s.checkSlot n = .ok k) (hh : s.holding p k = false) (hl : s.landingMark k = true) :
    takeView p n s = s.setPhase p (.behindLanding k) := by
  simp [takeView, e, hh, hl]

theorem exec_view_penalised {r : Result} (h : s.ready p) (hb : s.bears p 4) (e : s.checkSlot n = .error r)
    (hr : r.penalised = true) : exec (.view p n) s = .next ((s.answered p r).fined p 4) :=
  cycle_refused_penalised h hb (by decide) (takeView_of_error (s := s.busyWith p .view n .taken) e) hr

theorem setPhase_busyWith (s : State) (p : Port) (c : Command) (n : Byte) (ph ph' : Phase) :
    (s.busyWith p c n ph).setPhase p ph' = s.busyWith p c n ph' := by
  rw [State.setPhase, State.modPort, port_busyWith]
  exact congrArg (fun ports => { s with ports := ports }) (PerPort.set_set s.ports p _ _)

end View

/-- Settles O22: the grant of a VIEW that no watch matches, offered to the watch and answered. -/
theorem viewIsGranted : Obligations.ViewIsGranted := by
  intro s p n k hready hk hs hh hl hq hw
  have takes : takeView p n (s.busyWith p .view n .taken) = (s.busyWith p .view n .taken).grantView p k :=
    takeView_of_new (checkSlot_of_taking hk hs) hh hl
  refine cycle_done (X := s.withView p k) hready (by decide) ?_ rfl
  exact (takes.trans (grantView_eq_offerAct (s := s.busyWith p .view n .taken) hq)).trans (State.offerAct_unwatched hw)

/-- Settles O23: the refusals of the slot check, the refresh, and the wait. -/
theorem viewRefreshesWaitsOrIsRefused : Obligations.ViewRefreshesWaitsOrIsRefused := by
  intro s p n hready hbears
  refine ⟨fun hn => exec_view_penalised hready hbears (checkSlot_of_gt hn) rfl,
    fun k hk => ⟨fun hs => ?_, fun hs => ?_, fun hs => ⟨fun hh hw => ?_, fun hh hl => ?_⟩⟩⟩
  · exact exec_view_penalised hready hbears (checkSlot_of_unused hk hs) rfl
  · exact cycle_refused_plain hready (by decide)
      (takeView_of_error (s := s.busyWith p .view n .taken) (checkSlot_of_retiring hk hs)) rfl
  · have takes : takeView p n (s.busyWith p .view n .taken) = (s.busyWith p .view n .taken).refreshView p k :=
      takeView_of_held (checkSlot_of_taking hk hs) hh
    exact cycle_done (X := refreshed s p k) hready (by decide)
      ((takes.trans refreshView_eq_offerAct).trans (State.offerAct_unwatched hw)) rfl
  · have ⟨⟨_, hrep⟩, _⟩ := hready
    have takes : takeView p n (s.busyWith p .view n .taken) = s.busyWith p .view n (.behindLanding k) :=
      (takeView_of_landing (s := s.busyWith p .view n .taken) (checkSlot_of_taking hk hs) hh hl).trans
        (setPhase_busyWith s p .view n .taken _)
    exact (cycle_command hready (by decide)).trans (congrArg _ ((congrArg State.settle takes).trans (State.settle_nil _ hrep)))

/-! ### REQUEST (R8, R91) -/

section Request
variable {s : State} {p : Port} {n : Byte} {k : SlotIx} {r : Result}

theorem checkRequest_of_checkSlot (ha : (s.healthOf p).state ≠ .degraded) (e : s.checkSlot n = .error r) :
    s.checkRequest p n = .error r := by
  simp [State.checkRequest, ha, e]

theorem checkRequest_of_owner (ha : (s.healthOf p).state ≠ .degraded) (e : s.checkSlot n = .ok k)
    (ho : (s.slot k).config.owner = p) : s.checkRequest p n = .error .ownSlot := by
  simp [State.checkRequest, ha, e, ho]

theorem checkRequest_of_no_deadline (ha : (s.healthOf p).state ≠ .degraded) (e : s.checkSlot n = .ok k)
    (ho : (s.slot k).config.owner ≠ p) (hd : (s.slot k).config.requestDeadline = 0#8) :
    s.checkRequest p n = .error .notRequestable := by
  simp [State.checkRequest, ha, e, ho, hd]

theorem takeRequest_of_error (e : s.checkRequest p n = .error r) :
    takeRequest p n (s.busyWith p .request n .taken) = (s.busyWith p .request n .taken).refuse p r := by
  have checks : (s.busyWith p .request n .taken).checkRequest p n = .error r := e
  simp [takeRequest, checks]

theorem exec_request_penalised (h : s.ready p) (hb : s.bears p 4) (e : s.checkRequest p n = .error r)
    (hr : r.penalised = true) : exec (.request p n) s = .next ((s.answered p r).fined p 4) :=
  cycle_refused_penalised h hb (by decide) (takeRequest_of_error e) hr

theorem exec_request_plain (h : s.ready p) (e : s.checkRequest p n = .error r) (hr : r.penalised = false) :
    exec (.request p n) s = .next (s.answered p r) :=
  cycle_refused_plain h (by decide) (takeRequest_of_error e) hr

end Request

/-- Settles O32: the first check that fails is the result of `State.checkRequest`. -/
theorem requestRefusals : Obligations.RequestRefusals := by
  intro s p n hready hbears
  refine ⟨fun hd => exec_request_plain hready (by simp [State.checkRequest, hd]) rfl, fun hactive => ?_⟩
  have ha : (s.healthOf p).state ≠ .degraded := by simp [hactive]
  refine ⟨fun hn => exec_request_penalised hready hbears (checkRequest_of_checkSlot ha (checkSlot_of_gt hn)) rfl,
    fun k hk => ?_⟩
  intro r
  refine ⟨fun hs => ?_, fun hs => ?_, fun hs => ⟨fun ho => ?_, fun ho => ⟨fun hd => ?_, fun hd => ?_⟩⟩⟩
  · exact exec_request_penalised hready hbears (checkRequest_of_checkSlot ha (checkSlot_of_unused hk hs)) rfl
  · exact exec_request_plain hready (checkRequest_of_checkSlot ha (checkSlot_of_retiring hk hs)) rfl
  · exact exec_request_penalised hready hbears (checkRequest_of_owner ha (checkSlot_of_taking hk hs) ho) rfl
  · exact exec_request_plain hready (checkRequest_of_no_deadline ha (checkSlot_of_taking hk hs) ho hd) rfl
  · have checks := checkRequest_of_requestable ha hk hs ho hd
    refine ⟨fun mode lost => ?_, fun mode opened => ?_, fun mode live empty full => ?_⟩
    · exact exec_request_plain hready (checks.trans (if_pos ⟨mode, lost⟩)) rfl
    · have stays : ¬(r.config.answer = .ownerAnswers ∧ (r.orphaned = true ∨ s.lostOwners.has r.config.owner = true)) := by
        simp [mode]
      exact exec_request_plain hready ((checks.trans (if_neg stays)).trans (if_pos ⟨mode, opened⟩)) rfl
    · have stays : ¬(r.config.answer = .ownerAnswers ∧ (r.orphaned = true ∨ s.lostOwners.has r.config.owner = true)) := by
        simp [mode]
      have valued : ¬(r.config.answer = .autoAnswer ∧ r.state = .opened) := by simp [live]
      exact exec_request_plain hready (((checks.trans (if_neg stays)).trans (if_neg valued)).trans
        (if_pos ⟨mode, isEmpty_iff_eq_empty.mpr empty, full⟩)) rfl

/-! ### CONFIGURE_SLOT (R9, R10, R11) -/

section Configure
variable {s : State} {p : Port} {n : Byte} {k : SlotIx} {r : Result} {a b c : Word}

theorem badConfigArgs_eq_true_iff :
    badConfigArgs a b c = true ↔
      0x0FFF < a.toNat ∨ 4095 < b.toNat ∨ (c.toNat / 16) % 16 = 0 ∨ 8 < (c.toNat / 16) % 16 := by
  have length : (c.extractLsb' 4 4).toNat = (c.toNat / 16) % 16 := toNat_bits c 4 4
  simp only [badConfigArgs, length, Bool.or_eq_true, decide_eq_true_eq, or_assoc]

theorem identifierInUse_of_mem {i : Ident} {j : SlotIx} (hj : j ≠ k) (hs : (s.slot j).state ≠ .unused)
    (hi : (s.slot j).config.identifier = i) : s.identifierInUse k i = true := by
  rw [State.identifierInUse, List.any_eq_true]
  exact ⟨j, List.mem_finRange j, by simp [hj, hs, hi]⟩

theorem checkConfigure_of_bad (hk : k.val = n.toNat) (hs : (s.slot k).state = .unused)
    (hbad : badConfigArgs (s.port p).arg0 (s.port p).arg1 (s.port p).arg2 = true) :
    s.checkConfigure p n = .error .badArgument := by
  simp [State.checkConfigure, slotOf_some hk, hs, hbad]

theorem checkConfigure_of_inUse (hk : k.val = n.toNat) (hs : (s.slot k).state = .unused)
    (hbad : badConfigArgs (s.port p).arg0 (s.port p).arg1 (s.port p).arg2 = false)
    (hid : s.identifierInUse k (configOfArgs (s.port p).arg0 (s.port p).arg1 (s.port p).arg2).identifier = true) :
    s.checkConfigure p n = .error .idInUse := by
  simp [State.checkConfigure, slotOf_some hk, hs, hbad, hid]

/-- The checks of CONFIGURE_SLOT do not look at the command unit. -/
theorem checkConfigure_busyWith (cmd : Command) (m : Byte) (ph : Phase) :
    (s.busyWith p cmd m ph).checkConfigure p n = s.checkConfigure p n := by
  unfold State.checkConfigure
  rw [port_busyWith]
  rfl

theorem exec_configureSlot_penalised (h : s.ready p) (hb : s.bears p 4) (ht : s.token = some p)
    (e : s.checkConfigure p n = .error r) (hr : r.penalised = true) :
    exec (.configureSlot p n) s = .next ((s.answered p r).fined p 4) := by
  refine cycle_refused_penalised h hb (by decide) ((if_pos ht).trans ?_) hr
  simp [takeConfigure, checkConfigure_busyWith, e]

theorem exec_configureSlot_plain (h : s.ready p) (ht : s.token = some p) (e : s.checkConfigure p n = .error r)
    (hr : r.penalised = false) : exec (.configureSlot p n) s = .next (s.answered p r) := by
  refine cycle_token_denied h ht (by decide) (fun _ => rfl) ?_ hr
  simp [takeConfigure, checkConfigure_busyWith, e]

/-- A CONFIGURE_SLOT that passes its checks and that no watch matches. -/
theorem exec_configureSlot_unwatched (h : s.ready p) (ht : s.token = some p)
    (hw : s.watch.hits .config k (.port p) = false) (e : s.checkConfigure p n = .ok k) :
    let g := configOfArgs (s.port p).arg0 (s.port p).arg1 (s.port p).arg2
    exec (.configureSlot p n) s =
      .next ({ s with slots := s.slots.set k (Slot.configured g (!s.inside g.owner)) }.answered p .done) := by
  intro g
  have configured := takeConfigure_of_range ((checkConfigure_busyWith .configureSlot n .taken).trans e)
  rw [port_busyWith] at configured
  exact cycle_done (X := { s with slots := s.slots.set k (Slot.configured g (!s.inside g.owner)) }) h (by decide)
    (((if_pos ht).trans configured).trans (State.offerAct_unwatched hw)) rfl

end Configure

/-- Settles O36: the configuration is `configOfArgs` of the argument words. -/
theorem configureOpensTheSlot : Obligations.ConfigureOpensTheSlot := by
  intro s p n k hready htoken hk hs a b c ha hb h1 h8 hid hw
  have fields := configOfArgs_fields (c := c) ha hb
  have ⟨identifier, _⟩ := fields
  have unused : s.identifierInUse k (configOfArgs a b c).identifier = false :=
    identifierInUse_eq_false fun j hj hs e => hid j hj hs (by rw [e, identifier])
  have ok := checkConfigure_of_range (p := p) hk hs (badConfigArgs_of_range ha hb h1 h8) unused
  exact ⟨configOfArgs a b c, exec_configureSlot_unwatched hready htoken hw ok, fields⟩

/-- Settles O37: the first check that fails is the result of `State.checkConfigure`. -/
theorem configureRefusals : Obligations.ConfigureRefusals := by
  intro s p n hready hbears htoken
  refine ⟨fun hn => ?_, fun k hk => ?_⟩
  · exact exec_configureSlot_penalised hready hbears htoken (by simp [State.checkConfigure, slotOf_none hn]) rfl
  intro a b len bad
  have slot := slotOf_some hk
  refine ⟨fun hs => ?_, fun hs => ?_, fun hs hbad => ?_, fun hs hgood ⟨j, hj, hused, hid⟩ => ?_⟩
  · exact exec_configureSlot_plain hready htoken (by simp [State.checkConfigure, slot, hs]) rfl
  · have check : s.checkConfigure p n = .error .slotInUse := by rcases hs with hs | hs <;> simp [State.checkConfigure, slot, hs]
    exact exec_configureSlot_plain hready htoken check rfl
  · exact exec_configureSlot_penalised hready hbears htoken
      (checkConfigure_of_bad hk hs (badConfigArgs_eq_true_iff.mpr hbad)) rfl
  · have range := eq_false_of_ne_true (mt badConfigArgs_eq_true_iff.mp hgood)
    have ⟨ha, hb⟩ : a.toNat ≤ 0x0FFF ∧ b.toNat ≤ 4095 := by
      unfold bad at hgood
      omega
    have ⟨identifier, _⟩ := configOfArgs_fields (c := (s.port p).arg2) ha hb
    have inUse := identifierInUse_of_mem (s := s) hj hused (BitVec.eq_of_toNat_eq (hid.trans identifier.symm))
    exact exec_configureSlot_plain hready htoken (checkConfigure_of_inUse hk hs range inUse) rfl

/-! ### RETIRE_SLOT of a slot in use (R13, R14) -/

section Retire
variable {s : State} {p : Port} {n : Byte} {k : SlotIx} {r : Result}

theorem takeRetire_of_error (e : s.checkSlot n = .error r) : takeRetire p n s = s.refuse p r := by
  simp [takeRetire, State.checkRetire, e]

theorem exec_retireSlot_penalised (h : s.ready p) (hb : s.bears p 4) (ht : s.token = some p) (e : s.checkSlot n = .error r)
    (hr : r.penalised = true) : exec (.retireSlot p n) s = .next ((s.answered p r).fined p 4) :=
  cycle_refused_penalised h hb (by decide)
    ((if_pos ht).trans (takeRetire_of_error (s := s.busyWith p .retireSlot n .taken) e)) hr

theorem dropParked_of_unwaited (hd : ∀ o ∈ s.due, o.slot ≠ k) (hp : (s.slot k).parked = none) : s.dropParked k = s := by
  have none : s.due.find? (fun o => o.slot == k) = none := by simpa [List.find?_eq_none] using hd
  simp [State.dropParked, State.reclaimDue, none, hp]

/-- Steps 1 to 5 of R14 with nothing waiting on the slot. -/
theorem retireSteps_of_unwaited (hq : ∀ o ∈ s.queue ++ s.due, o.slot ≠ k) (hp : (s.slot k).parked = none)
    (hr : (s.slot k).requesters = PortSet.empty) : s.retireSteps k = s.modSlot k retiringRecord := by
  have record : (s.modSlot k fun r => { r with state := .retiring }).slot k = { s.slot k with state := .retiring } :=
    State.slot_modSlot_self s k _
  have entries : ∀ o ∈ s.queue, o.slot ≠ k := fun o ho => hq o (List.mem_append_left _ ho)
  have dues : ∀ o ∈ s.due, o.slot ≠ k := fun o ho => hq o (List.mem_append_right _ ho)
  unfold State.retireSteps
  dsimp only
  rw [dropEntries_of_none (by exact entries), dropParked_of_unwaited (by exact dues) (by rw [record]; exact hp),
    timeOutRequesters_of_none (by rw [record]; exact hr), modSlot_modSlot, modSlot_modSlot]
  rfl

end Retire

/-- Settles O38: the refusals of the slot check, and the retirement that a holder or a landing keeps from its completion. -/
theorem retireOfASlotInUse : Obligations.RetireOfASlotInUse := by
  intro s p n hready hbears htoken
  refine ⟨fun hn => exec_retireSlot_penalised hready hbears htoken (checkSlot_of_gt hn) rfl,
    fun k hk => ⟨fun hs => ?_, fun hs => ?_, fun hs use hq hp hr hd hw => ?_⟩⟩
  · exact exec_retireSlot_penalised hready hbears htoken (checkSlot_of_unused hk hs) rfl
  · exact cycle_token_denied hready htoken (by decide) (fun _ => rfl)
      (takeRetire_of_error (s := s.busyWith p .retireSlot n .taken) (checkSlot_of_retiring hk hs)) rfl
  · have record : retiringRecord (s.slot k) = { s.slot k with state := .retiring, freshness := none } := by
      rw [retiringRecord, ← hr, ← hd]
    have steps : (s.busyWith p .retireSlot n .taken).retireSteps k =
        (s.busyWith p .retireSlot n .taken).modSlot k retiringRecord := retireSteps_of_unwaited hq hp hr
    have stays := testRetirement_of_use (s := (s.busyWith p .retireSlot n .taken).modSlot k retiringRecord) use
    have retires := takeRetire_of_taking (s := s.busyWith p .retireSlot n .taken) (p := p) (checkSlot_of_taking hk hs)
    rw [steps, stays] at retires
    rw [← record]
    exact cycle_done (X := s.modSlot k retiringRecord) hready (by decide)
      (((if_pos htoken).trans retires).trans (State.offerAct_unwatched hw)) rfl

end Sys2Proof.Commands
end

section
namespace Sys2Proof.Machine
open Sys2Proof Sys2Proof.Publication

/-! ### The law of holds in parts (R44 to R46, R52, R56, R149)

`State.Modes` is what the exchange state says, and `State.Shelved` what the slots, the holds and the lists of values say together.
The end of a hold leaves for a moment one slot whose pending value has not been acted on (R43): `State.Shelved` exempts it from the
ripe list. -/

/-- No port holds slot `k`. -/
def State.Unheld (s : State) (k : SlotIx) : Prop := ∀ p, s.holding p k = false

/-- The laws of the exchange state and its marks. -/
structure State.Modes (s : State) : Prop where
  flying : s.flight.isSome = true → s.exchange = .running ∨ s.exchange = .freezing ∨ s.exchange = .stepping
  tasked : s.task.isSome = true ↔ s.exchange = .stepping
  freezing : s.freezeMark = true → s.exchange = .stepping
  restarting : s.exchange = .restarting → s.restartMark = true ∧ ∀ k, s.Unheld k
  ripe : s.ripe ≠ [] → s.exchange = .frozen ∨ s.exchange = .stepping
  due : s.due ≠ [] → s.exchange = .running ∨ s.exchange = .freezing

/-- The laws of the slots, the holds and the lists of values; slot `x`, if any, is still to be acted on. -/
structure State.Shelved (x : Option SlotIx) (s : State) : Prop where
  entries : ∀ o ∈ s.queue, (s.slot o.slot).state.taking = true
  due : ∀ k ∈ s.due.map Offer.slot, (s.slot k).state.taking = true ∧ s.Unheld k ∧ (s.slot k).parked = none
  dueOnce : (s.due.map Offer.slot).Nodup
  parked : ∀ k o, (s.slot k).parked = some o → o.slot = k ∧ (s.slot k).state.taking = true
  ripe : ∀ k, k ∈ s.ripe ↔ s.Unheld k ∧ (s.slot k).parked.isSome = true ∧ x ≠ some k
  ripeOnce : s.ripe.Nodup
  held : ∀ p k, s.holding p k = true → (s.slot k).state ≠ .unused
  waits : ∀ p k, s.phaseOf p = some (.behindLanding k) → s.holding p k = false ∧ (s.slot k).state ≠ .unused
  flying : ∀ l, s.flight = some l → s.Unheld l.offer.slot

/-- The law of holds, but for the reports that wait inside an event. -/
structure State.Sound (s : State) : Prop where
  modes : s.Modes
  shelved : s.Shelved none

theorem State.hold_eq_none_iff {s : State} {p : Port} : s.hold p = none ↔ ∀ k, s.holding p k = false := by
  unfold State.holding
  cases s.hold p with
  | none => simp
  | some h => simp

theorem State.unheld_iff {s : State} {k : SlotIx} : (s.holdSet k).isEmpty = true ↔ s.Unheld k := s.holdSet_isEmpty k

theorem State.holdLaw_iff {s : State} : s.HoldLaw ↔ s.Sound ∧ s.reports = [] := by
  simp only [State.HoldLaw, State.ExchangeLaw, State.SlotLaw, State.unheld_iff]
  constructor
  · rintro ⟨⟨flying, tasked, freezing, restarting, reports⟩, ⟨entries, parked, held, waits⟩, landing, due, once, ripe, ripeOnce,
      ripeIn, dueIn⟩
    refine ⟨⟨⟨flying, tasked, freezing, fun hx => ?_, ripeIn, dueIn⟩, ?_⟩, reports⟩
    · obtain ⟨mark, holds⟩ := restarting hx
      exact ⟨mark, fun k p => State.hold_eq_none_iff.mp (holds p) k⟩
    · refine ⟨fun o ho => entries o (List.mem_append_left _ ho), fun k hk => ?_, once, parked, by simpa using ripe, ripeOnce, held,
        waits, landing⟩
      obtain ⟨o, ho, rfl⟩ := List.mem_map.mp hk
      exact ⟨entries o (List.mem_append_right _ ho), due o ho⟩
  · rintro ⟨⟨⟨flying, tasked, freezing, restarting, ripeIn, dueIn⟩, ⟨entries, due, once, parked, ripe, ripeOnce, held, waits,
      landing⟩⟩, reports⟩
    refine ⟨⟨flying, tasked, freezing, fun hx => ?_, reports⟩, ⟨fun o ho => ?_, parked, held, waits⟩, landing, fun o ho => ?_, once,
      by simpa using ripe, ripeOnce, ripeIn, dueIn⟩
    · obtain ⟨mark, holds⟩ := restarting hx
      exact ⟨mark, fun p => State.hold_eq_none_iff.mpr fun k => holds k p⟩
    · rcases List.mem_append.mp ho with ho | ho
      · exact entries o ho
      · exact (due _ (List.mem_map_of_mem ho)).1
    · exact (due _ (List.mem_map_of_mem ho)).2

/-! ### What the laws read of a state -/

/-- What the laws of identifiers and holds read of a slot record, and the value that a holder sees. -/
def Slot.core (r : Slot) : Ident × SlotState × SlotValue × Option Offer := (r.config.identifier, r.state, r.value, r.parked)

theorem Slot.core_eq_iff {r r' : Slot} : r'.core = r.core ↔
    r'.config.identifier = r.config.identifier ∧ r'.state = r.state ∧ r'.value = r.value ∧ r'.parked = r.parked := by
  simp [Slot.core]

/-- The lists of values, and the exchange state with its marks. -/
def State.lists (s : State) : List Offer × List Offer × List SlotIx := (s.queue, s.due, s.ripe)

/-- The exchange state, what it does, and its marks. -/
def State.mode (s : State) : Exchange × Option Task × Bool × Bool := (s.exchange, s.task, s.freezeMark, s.restartMark)

/-- From `s` to `t` nothing moves that the laws of identifiers and holds read, but that a VIEW may cease to wait. -/
structure State.Alike (s t : State) : Prop where
  slots : ∀ k, (t.slot k).core = (s.slot k).core
  holds : ∀ p k, t.holding p k = s.holding p k
  lists : t.lists = s.lists
  mode : t.mode = s.mode
  flight : t.flight.map Landing.offer = s.flight.map Landing.offer
  waits : ∀ p k, t.phaseOf p = some (.behindLanding k) → s.phaseOf p = some (.behindLanding k)

namespace State.Alike
variable {s t u : State}

theorem refl (s : State) : Alike s s := ⟨fun _ => rfl, fun _ _ => rfl, rfl, rfl, rfl, fun _ _ => id⟩

theorem trans (h : Alike s t) (g : Alike t u) : Alike s u :=
  ⟨fun k => (g.slots k).trans (h.slots k), fun p k => (g.holds p k).trans (h.holds p k), g.lists.trans h.lists,
    g.mode.trans h.mode, g.flight.trans h.flight, fun p k hp => h.waits p k (g.waits p k hp)⟩

section
variable (h : Alike s t)
include h

theorem identifier (k : SlotIx) : (t.slot k).config.identifier = (s.slot k).config.identifier := (Slot.core_eq_iff.mp (h.slots k)).1
theorem state (k : SlotIx) : (t.slot k).state = (s.slot k).state := (Slot.core_eq_iff.mp (h.slots k)).2.1
theorem value (k : SlotIx) : (t.slot k).value = (s.slot k).value := (Slot.core_eq_iff.mp (h.slots k)).2.2.1
theorem parked (k : SlotIx) : (t.slot k).parked = (s.slot k).parked := (Slot.core_eq_iff.mp (h.slots k)).2.2.2
theorem queue : t.queue = s.queue := congrArg Prod.fst h.lists
theorem due : t.due = s.due := congrArg (fun l => l.2.1) h.lists
theorem ripe : t.ripe = s.ripe := congrArg (fun l => l.2.2) h.lists
theorem exchange : t.exchange = s.exchange := congrArg Prod.fst h.mode
theorem task : t.task = s.task := congrArg (fun m => m.2.1) h.mode
theorem freezeMark : t.freezeMark = s.freezeMark := congrArg (fun m => m.2.2.1) h.mode
theorem restartMark : t.restartMark = s.restartMark := congrArg (fun m => m.2.2.2) h.mode

theorem unheld (k : SlotIx) : t.Unheld k ↔ s.Unheld k := by simp only [State.Unheld, h.holds]

theorem flying : t.flight.isSome = s.flight.isSome := by
  simpa using congrArg Option.isSome h.flight

theorem landing {l : Landing} (hl : t.flight = some l) : ∃ l', s.flight = some l' ∧ l'.offer = l.offer := by
  have offer := h.flight
  rw [hl] at offer
  exact Option.map_eq_some_iff.mp offer.symm

theorem modes (g : s.Modes) : t.Modes := by
  refine ⟨?_, ?_, ?_, ?_, ?_, ?_⟩
  · rw [h.flying, h.exchange]; exact g.flying
  · rw [h.task, h.exchange]; exact g.tasked
  · rw [h.freezeMark, h.exchange]; exact g.freezing
  · simp only [h.exchange, h.restartMark, h.unheld]; exact g.restarting
  · rw [h.ripe, h.exchange]; exact g.ripe
  · rw [h.due, h.exchange]; exact g.due

theorem shelved {x : Option SlotIx} (g : s.Shelved x) : t.Shelved x := by
  refine ⟨?_, ?_, ?_, ?_, ?_, ?_, ?_, ?_, ?_⟩
  · simp only [h.queue, h.state]; exact g.entries
  · simp only [h.due, h.state, h.unheld, h.parked]; exact g.due
  · rw [h.due]; exact g.dueOnce
  · simp only [h.parked, h.state]; exact g.parked
  · simp only [h.ripe, h.unheld, h.parked]; exact g.ripe
  · rw [h.ripe]; exact g.ripeOnce
  · simp only [h.holds, h.state]; exact g.held
  · simp only [h.holds, h.state]; exact fun p k hp => g.waits p k (h.waits p k hp)
  · intro l hl
    obtain ⟨l', hl', e⟩ := h.landing hl
    rw [h.unheld, ← e]
    exact g.flying l' hl'

theorem sound (g : s.Sound) : t.Sound := ⟨h.modes g.modes, h.shelved g.shelved⟩

end
end State.Alike

/-! ### Updates of the slots and the lists -/

/-- The exchange state stays; no landing, ripe value, due value or hold comes. -/
theorem State.Modes.lessen {s t : State} (h : s.Modes) (hm : t.mode = s.mode)
    (hf : t.flight.isSome = true → s.flight.isSome = true) (hr : s.ripe = [] → t.ripe = []) (hd : s.due = [] → t.due = [])
    (hh : ∀ k, s.Unheld k → t.Unheld k) : t.Modes := by
  obtain ⟨exchange, task, freezeMark, restartMark⟩ : t.exchange = s.exchange ∧ t.task = s.task ∧ t.freezeMark = s.freezeMark ∧
      t.restartMark = s.restartMark := by simpa only [State.mode, Prod.mk.injEq] using hm
  refine ⟨?_, ?_, ?_, ?_, ?_, ?_⟩
  · rw [exchange]; exact h.flying ∘ hf
  · rw [task, exchange]; exact h.tasked
  · rw [freezeMark, exchange]; exact h.freezing
  · rw [exchange, restartMark]; exact fun hx => (h.restarting hx).imp_right fun unheld k => hh k (unheld k)
  · rw [exchange]; exact fun hne => h.ripe (mt hr hne)
  · rw [exchange]; exact fun hne => h.due (mt hd hne)

namespace State.Shelved
variable {x : Option SlotIx} {s : State} {k : SlotIx} (h : s.Shelved x)
include h

/-- The Publication Queue is replaced. -/
theorem requeue {q : List Offer} {n : Nat} (hq : ∀ o ∈ q, (s.slot o.slot).state.taking = true) :
    Shelved x { s with queue := q, nextOrder := n } := ⟨hq, h.due, h.dueOnce, h.parked, h.ripe, h.ripeOnce, h.held, h.waits, h.flying⟩

/-- Members of the due list go, or change but for their slots. -/
theorem redue {d : List Offer} (hd : (d.map Offer.slot).Sublist (s.due.map Offer.slot)) : Shelved x { s with due := d } :=
  ⟨h.entries, fun k hk => h.due k (hd.subset hk), h.dueOnce.sublist hd, h.parked, h.ripe, h.ripeOnce, h.held, h.waits, h.flying⟩

/-- The ripe list is replaced. -/
theorem reripe {y : Option SlotIx} {r : List SlotIx}
    (hr : ∀ j, j ∈ r ↔ s.Unheld j ∧ (s.slot j).parked.isSome = true ∧ y ≠ some j) (hn : r.Nodup) :
    Shelved y { s with ripe := r } := ⟨h.entries, h.due, h.dueOnce, h.parked, hr, hn, h.held, h.waits, h.flying⟩

/-- A slot leaves the ripe list, and is to be acted on. -/
theorem unripen (hx : x = none ∨ x = some k) : Shelved (some k) (s.unripen k) := by
  refine h.reripe (fun j => ?_) (h.ripeOnce.filter _)
  have apart : (j != k) = true ↔ some k ≠ some j := by simp [@eq_comm _ k j]
  rw [List.mem_filter, h.ripe j, apart]
  rcases hx with rfl | rfl <;> simp [and_assoc]

/-- A slot that has no pending value, or is held, has none to act on. -/
theorem exempt (hx : x = none) (hk : (s.slot k).parked = none ∨ ¬s.Unheld k) : Shelved (some k) s := by
  refine h.reripe (fun j => ?_) h.ripeOnce
  rw [h.ripe j, hx]
  refine and_congr_right fun unheld => and_congr_right fun parked => iff_of_true nofun ?_
  rintro ⟨⟩
  rcases hk with hk | hk
  · simp [hk] at parked
  · exact hk unheld

/-- The slot to be acted on is held, or has no pending value: it stays off the ripe list. -/
theorem unexempt (hx : x = some k) (hk : (s.slot k).parked = none ∨ ¬s.Unheld k) : Shelved none s := by
  refine h.reripe (fun j => ?_) h.ripeOnce
  rw [h.ripe j, hx]
  refine and_congr_right fun unheld => and_congr_right fun parked => iff_of_true ?_ nofun
  rintro ⟨⟩
  rcases hk with hk | hk
  · simp [hk] at parked
  · exact hk unheld

/-- The slot to be acted on becomes ripe. -/
theorem ripen (hx : x = some k) (hu : s.Unheld k) (hp : (s.slot k).parked.isSome = true) : Shelved none (s.ripen k) := by
  subst hx
  have out : k ∉ s.ripe := fun hk => ((h.ripe k).mp hk).2.2 rfl
  rw [State.ripen, if_neg out]
  refine h.reripe (fun j => ?_) ((insertBy_perm _ _ _).nodup_iff.mpr (List.nodup_cons.mpr ⟨out, h.ripeOnce⟩))
  rw [mem_insertBy, h.ripe j]
  by_cases e : j = k
  · subst e
    simp [hu, hp]
  · simp [e, Ne.symm e]

/-- One slot record is replaced; it may be the one to be acted on, before or after. -/
theorem setSlot {y : Option SlotIx} {r : Slot} (hxy : x = y ∨ (x = none ∨ x = some k) ∧ (y = none ∨ y = some k))
    (entries : r.state.taking = true ∨ ∀ o ∈ s.queue, o.slot ≠ k)
    (due : k ∈ s.due.map Offer.slot → r.state.taking = true ∧ r.parked = none)
    (parked : ∀ o, r.parked = some o → o.slot = k ∧ r.state.taking = true)
    (ripe : k ∈ s.ripe ↔ s.Unheld k ∧ r.parked.isSome = true ∧ y ≠ some k)
    (used : r.state = .unused → s.Unheld k ∧ ∀ p, s.phaseOf p ≠ some (.behindLanding k)) :
    Shelved y { s with slots := s.slots.set k r } := by
  let t := { s with slots := s.slots.set k r }
  have self : t.slot k = r := Table.get_set_self _ _ _
  have other {j : SlotIx} (hj : j ≠ k) : t.slot j = s.slot j := Table.get_set_ne _ hj _
  refine ⟨fun o ho => ?_, fun j hj => ?_, h.dueOnce, fun j o ho => ?_, fun j => ?_, h.ripeOnce, fun p j hp => ?_,
    fun p j hp => ?_, h.flying⟩
  · show (t.slot o.slot).state.taking = true
    by_cases e : o.slot = k
    · rw [e, self]
      exact entries.resolve_right fun none => none o ho e
    · rw [other e]
      exact h.entries o ho
  · show (t.slot j).state.taking = true ∧ s.Unheld j ∧ (t.slot j).parked = none
    by_cases e : j = k
    · subst e
      obtain ⟨taking, unparked⟩ := due hj
      rw [self]
      exact ⟨taking, (h.due j hj).2.1, unparked⟩
    · rw [other e]
      exact h.due j hj
  · replace ho : (t.slot j).parked = some o := ho
    show o.slot = j ∧ (t.slot j).state.taking = true
    by_cases e : j = k
    · subst e
      rw [self] at ho ⊢
      exact parked o ho
    · rw [other e] at ho ⊢
      exact h.parked j o ho
  · show j ∈ s.ripe ↔ s.Unheld j ∧ (t.slot j).parked.isSome = true ∧ y ≠ some j
    by_cases e : j = k
    · subst e
      rw [self]
      exact ripe
    · rw [other e, h.ripe j]
      have apart {z : Option SlotIx} (hz : z = none ∨ z = some k) : z ≠ some j := by
        rcases hz with rfl | rfl
        · exact nofun
        · exact fun e' => e (Option.some.inj e').symm
      rcases hxy with rfl | ⟨hx, hy⟩
      · exact Iff.rfl
      · exact and_congr_right fun _ => and_congr_right fun _ => iff_of_true (apart hx) (apart hy)
  · show (t.slot j).state ≠ .unused
    by_cases e : j = k
    · subst e
      rw [self]
      exact fun hu => Bool.false_ne_true (((used hu).1 p).symm.trans hp)
    · rw [other e]
      exact h.held p j hp
  · show s.holding p j = false ∧ (t.slot j).state ≠ .unused
    refine ⟨(h.waits p j hp).1, ?_⟩
    by_cases e : j = k
    · subst e
      rw [self]
      exact fun hu => (used hu).2 p hp
    · rw [other e]
      exact (h.waits p j hp).2

/-- A slot record is replaced by one with the same pending value, that is taking where the old one is and in use where it is. -/
theorem restate {r : Slot} (hp : r.parked = (s.slot k).parked)
    (ht : (s.slot k).state.taking = true → r.state.taking = true) (hu : r.state = .unused → (s.slot k).state = .unused) :
    Shelved x { s with slots := s.slots.set k r } := by
  refine h.setSlot (.inl rfl) ?_ (fun hk => ?_) (fun o ho => ?_) ?_ fun e => ⟨fun p => ?_, fun p hw => (h.waits p k hw).2 (hu e)⟩
  · by_cases hk : (s.slot k).state.taking = true
    · exact .inl (ht hk)
    · exact .inr fun o ho e => hk (e ▸ h.entries o ho)
  · obtain ⟨taking, -, unparked⟩ := h.due k hk
    exact ⟨ht taking, hp.trans unparked⟩
  · obtain ⟨slot, taking⟩ := h.parked k o (hp ▸ ho)
    exact ⟨slot, ht taking⟩
  · rw [hp]
    exact h.ripe k
  · by_contra hh
    exact h.held p k (Bool.eq_true_of_not_eq_false hh) (hu e)

/-- The pending value of the slot to be acted on is taken from it. -/
theorem unpark (hx : x = some k) : Shelved none (s.setParked k none) := by
  subst hx
  refine h.setSlot (.inr ⟨.inr rfl, .inl rfl⟩) ?_ (fun hk => ?_) nofun ?_ fun e => ⟨fun p => ?_, fun p hw => (h.waits p k hw).2 e⟩
  · by_cases hk : (s.slot k).state.taking = true
    · exact .inl hk
    · exact .inr fun o ho e => hk (e ▸ h.entries o ho)
  · exact ⟨(h.due k hk).1, rfl⟩
  · rw [h.ripe k]
    simp
  · by_contra hh
    exact h.held p k (Bool.eq_true_of_not_eq_false hh) e

/-- A value becomes the pending value of its slot, which has no due value and is held, or has a pending value, or is to be acted on. -/
theorem park {o : Offer} {r : Slot} (hs : r.state = (s.slot k).state) (hr : r.parked = some o) (ho : o.slot = k)
    (ht : (s.slot k).state.taking = true) (hd : k ∉ s.due.map Offer.slot)
    (hk : ¬s.Unheld k ∨ (s.slot k).parked.isSome = true ∨ x = some k) : Shelved x { s with slots := s.slots.set k r } := by
  have taking : r.state.taking = true := hs ▸ ht
  refine h.setSlot (.inl rfl) (.inl taking) (fun hk => absurd hk hd) (fun o' ho' => ⟨?_, taking⟩) ?_ fun e => ?_
  · rw [hr] at ho'
    cases ho'
    exact ho
  · rw [h.ripe k, hr]
    rcases hk with hk | hk | hk
    · simp [hk]
    · simp [hk]
    · simp [hk]
  · rw [e] at taking
    cases taking

/-- The slot of a pending value has no due value. -/
theorem not_due_of_parked (hp : (s.slot k).parked ≠ none) : k ∉ s.due.map Offer.slot := fun hk => hp (h.due k hk).2.2

/-- A held slot has no due value. -/
theorem not_due_of_held (hk : ¬s.Unheld k) : k ∉ s.due.map Offer.slot := fun hd => hk (h.due k hd).2.1

/-- A landing is in flight on an unheld slot, or none is. -/
theorem fly {f : Option Landing} (hf : ∀ l, f = some l → s.Unheld l.offer.slot) : Shelved x { s with flight := f } :=
  ⟨h.entries, h.due, h.dueOnce, h.parked, h.ripe, h.ripeOnce, h.held, h.waits, hf⟩

/-- The exchange state and its marks are no part of these laws. -/
theorem remode {e : Exchange} {m f : Bool} {t : Option Task} :
    Shelved x { s with exchange := e, restartMark := m, freezeMark := f, task := t } :=
  ⟨h.entries, h.due, h.dueOnce, h.parked, h.ripe, h.ripeOnce, h.held, h.waits, h.flying⟩

end State.Shelved

/-! ### What a step may do to identifiers, holds and values (R3, R12, R46, R57) -/

/-- No slot of `t` is in use that was not in use in `s` under the same identifier. -/
def State.Moves (s t : State) : Prop :=
  ∀ k, (t.slot k).state ≠ .unused →
    (s.slot k).state ≠ .unused ∧ (t.slot k).config.identifier = (s.slot k).config.identifier

/-- Of the ports and slots of `X`, a port of `t` holds a slot only where it holds it in `s`, with the same value in it. -/
def State.Shows (X : Port → SlotIx → Prop) (s t : State) : Prop :=
  ∀ p k, X p k → t.holding p k = true → s.holding p k = true ∧ (t.slot k).value = (s.slot k).value

/-- No port is looked at. -/
def nobody : Port → SlotIx → Prop := fun _ _ => False

/-- What an operation of the part does to the laws of identifiers and holds: it keeps both, the second with the values under the
holders of `X`; and it does not begin a restart. -/
structure State.Keeps (X : Port → SlotIx → Prop) (s t : State) : Prop where
  ids : s.IdentifierLaw → t.IdentifierLaw
  sound : s.Sound → t.Sound
  shows : s.Sound → State.Shows X s t
  runs : t.exchange = .restarting → s.exchange = .restarting

section Relations
variable {X : Port → SlotIx → Prop} {s t u : State}

theorem State.Moves.refl (s : State) : s.Moves s := fun _ h => ⟨h, rfl⟩

theorem State.Moves.trans (h : s.Moves t) (g : t.Moves u) : s.Moves u := fun k hk => by
  obtain ⟨used, same⟩ := g k hk
  obtain ⟨used', same'⟩ := h k used
  exact ⟨used', same.trans same'⟩

theorem State.Moves.of_slots (e : t.slots = s.slots) : s.Moves t := fun k hk => by
  have slot : t.slot k = s.slot k := congrArg (fun table => table.get k) e
  rw [slot] at hk ⊢
  exact ⟨hk, rfl⟩

theorem State.Moves.set {k : SlotIx} {r : Slot}
    (hr : r.state ≠ .unused → (s.slot k).state ≠ .unused ∧ r.config.identifier = (s.slot k).config.identifier) :
    s.Moves { s with slots := s.slots.set k r } := fun j => by
  have slot : State.slot { s with slots := s.slots.set k r } j = if j = k then r else s.slot j := Table.get_set _ _ _ _
  rw [slot]
  split
  · next e => exact e ▸ hr
  · exact fun hj => ⟨hj, rfl⟩

/-- Slots in use that keep their identifiers keep the law of identifiers. -/
theorem State.Moves.ids (h : s.Moves t) (law : s.IdentifierLaw) : t.IdentifierLaw := fun j k hj hk e => by
  obtain ⟨usedj, samej⟩ := h j hj
  obtain ⟨usedk, samek⟩ := h k hk
  exact law j k usedj usedk (samej.symm.trans (e.trans samek))

theorem State.Shows.refl (s : State) : s.Shows X s := fun _ _ _ h => ⟨h, rfl⟩

theorem State.Shows.trans (h : s.Shows X t) (g : t.Shows X u) : s.Shows X u := fun p k hx hu => by
  obtain ⟨held, same⟩ := g p k hx hu
  obtain ⟨held', same'⟩ := h p k hx held
  exact ⟨held', same.trans same'⟩

/-- No port gains a hold, and no value moves but under slots that no port holds. -/
theorem State.Shows.of_unheld (hh : ∀ p k, t.holding p k = true → s.holding p k = true)
    (hv : ∀ k, (t.slot k).value = (s.slot k).value ∨ t.Unheld k) : s.Shows X t := fun p k _ ht =>
  ⟨hh p k ht, (hv k).resolve_right fun unheld => Bool.false_ne_true ((unheld p).symm.trans ht)⟩

theorem State.Alike.moves (h : s.Alike t) : s.Moves t := fun k hk => by
  rw [h.state] at hk
  exact ⟨hk, h.identifier k⟩

theorem State.Alike.keeps (h : s.Alike t) : s.Keeps X t :=
  ⟨h.moves.ids, h.sound, fun _ => .of_unheld (fun p k hp => (h.holds p k).symm.trans hp) fun k => .inl (h.value k),
    fun hx => h.exchange.symm.trans hx⟩

theorem State.Keeps.refl (s : State) : s.Keeps X s := (State.Alike.refl s).keeps

theorem State.Keeps.trans (h : s.Keeps X t) (g : t.Keeps X u) : s.Keeps X u :=
  ⟨g.ids ∘ h.ids, g.sound ∘ h.sound, fun hs => (h.shows hs).trans (g.shows (h.sound hs)), h.runs ∘ g.runs⟩

theorem State.Keeps.ite {c : Prop} [Decidable c] (ht : c → s.Keeps X t) (he : ¬c → s.Keeps X u) :
    s.Keeps X (if c then t else u) := by
  split
  · next hc => exact ht hc
  · next hc => exact he hc

/-- What an operation comes to that only a sound state lets be told. -/
theorem State.Keeps.of_sound (hi : s.IdentifierLaw → t.IdentifierLaw) (hr : t.exchange = .restarting → s.exchange = .restarting)
    (h : s.Sound → t.Sound ∧ s.Shows X t) : s.Keeps X t :=
  ⟨hi, fun hs => (h hs).1, fun hs => (h hs).2, hr⟩

end Relations
end Sys2Proof.Machine
end

section
namespace Sys2Proof.Machine
open Sys2Proof Sys2Proof.Publication

/-! ### Operations that move nothing that the laws of identifiers and holds read -/

/-- The fields that the laws of identifiers and holds read, but for the command units. -/
def State.front (s : State) :=
  (s.slots, s.holds, s.flight, s.lists, s.mode)

section Alike
variable {X : Port → SlotIx → Prop} {b s t : State}

theorem State.Alike.of_front (e : t.front = s.front)
    (hw : ∀ p k, t.phaseOf p = some (.behindLanding k) → s.phaseOf p = some (.behindLanding k)) : s.Alike t := by
  obtain ⟨slots, holds, flight, lists, mode⟩ : t.slots = s.slots ∧ t.holds = s.holds ∧ t.flight = s.flight ∧ t.lists = s.lists ∧
      t.mode = s.mode := by simpa only [State.front, Prod.mk.injEq] using e
  refine ⟨fun k => ?_, fun p k => ?_, lists, mode, by rw [flight], hw⟩
  · rw [State.slot, slots]
    rfl
  · rw [State.holding, State.hold, holds]
    rfl

/-- An operation that leaves the command units too. -/
theorem State.Alike.quiet (e : t.front = s.front) (hp : t.ports = s.ports) : s.Alike t :=
  .of_front e fun p k hw => by rwa [State.phaseOf, State.port, hp] at hw

/-- One slot record changes in fields that the laws do not read. -/
theorem State.Alike.modSlot {k : SlotIx} {f : Slot → Slot} (hf : (f (s.slot k)).core = (s.slot k).core) :
    s.Alike (s.modSlot k f) := by
  refine ⟨fun j => ?_, fun _ _ => rfl, rfl, rfl, rfl, fun _ _ => id⟩
  rw [State.slot_modSlot]
  split
  · next e => rw [hf, e]
  · rfl

theorem State.Alike.mapSlots {f : Slot → Slot} (hf : ∀ r : Slot, (f r).core = r.core) : s.Alike (s.mapSlots f) :=
  ⟨fun j => by rw [State.slot_mapSlots, hf], fun _ _ => rfl, rfl, rfl, rfl, fun _ _ => id⟩

/-- A command of port `p` that no longer waits behind a landing. -/
theorem State.Alike.modPort {p : Port} {f : PortUnit → PortUnit}
    (hf : ∀ c, (f (s.port p)).unit.busy = some c → ∀ k, c.phase = .behindLanding k → (s.port p).unit.busy = some c) :
    s.Alike (s.modPort p f) := by
  refine .of_front rfl fun q k hw => ?_
  obtain ⟨c, hc, phase⟩ := Option.map_eq_some_iff.mp hw
  rw [State.port_modPort] at hc
  split at hc
  · next e =>
    subst e
    exact Option.map_eq_some_iff.mpr ⟨c, hf c hc k phase, phase⟩
  · exact Option.map_eq_some_iff.mpr ⟨c, hc, phase⟩

/-- No VIEW begins to wait where no command becomes BUSY. -/
theorem State.NoGain.waits (h : State.NoGain (fun _ => False) b s) (p : Port) (k : SlotIx)
    (hw : s.phaseOf p = some (.behindLanding k)) : b.phaseOf p = some (.behindLanding k) := by
  obtain ⟨-, -, -, commands, -⟩ := h
  obtain ⟨c, hc, phase⟩ := Option.map_eq_some_iff.mp hw
  obtain ⟨d, hd, -, same | ⟨-, gone⟩ | no, -⟩ := commands p c hc
  · exact Option.map_eq_some_iff.mpr ⟨d, hd, same ▸ phase⟩
  · cases phase.symm.trans gone
  · exact no.elim

theorem State.alike_post (s : State) (p : Port) (r : Result) : s.Alike (s.post p r) :=
  .modPort fun c hc k _ => by
    split at hc
    · cases hc
    · exact hc

theorem State.alike_setPhase (s : State) (p : Port) {ph : Phase} (h : ∀ k, ph ≠ .behindLanding k) : s.Alike (s.setPhase p ph) :=
  .modPort fun c hc k hk => by
    obtain ⟨d, -, rfl⟩ := Option.map_eq_some_iff.mp hc
    exact absurd hk (h k)

theorem State.alike_completeAll (s : State) (c : Command) : s.Alike (s.completeAll c) :=
  .of_front (by rw [State.completeAll_frame]; rfl) ((State.NoGain.refl s).completeAll c).waits

theorem State.alike_settle (s : State) : s.Alike s.settle :=
  .of_front (by rw [State.settle_frame]; rfl) (State.NoGain.refl s).settle.waits

theorem State.alike_appendNote (s : State) (p : Port) (n : Note) : s.Alike (s.appendNote p n) := by
  rw [State.appendNote_frame]
  exact .quiet rfl rfl

theorem State.alike_appendEach (s : State) (ps : PortSet) (n : Port → Note) : s.Alike (s.appendEach ps n) := by
  rw [State.appendEach_frame]
  exact .quiet rfl rfl

theorem State.alike_tell (s : State) (ps : PortSet) (r : Reason) (k : SlotIx) : s.Alike (s.tell ps r k) := s.alike_appendEach ps _

theorem State.alike_tellDropped (s : State) (src : Source) (k : SlotIx) : s.Alike (s.tellDropped src k) := by
  rw [State.tellDropped_frame]
  exact .quiet rfl rfl

theorem State.alike_pick (s : State) (n : Nat) : s.Alike (s.pick n).2 := by
  rw [State.pick_frame]
  exact .quiet rfl rfl

theorem State.alike_shuffle {α : Type} (s : State) (l : List α) : s.Alike (s.shuffle l).2 := by
  rw [State.shuffle_frame]
  exact .quiet rfl rfl

theorem State.alike_markDetaching (s : State) (q : Port) (c : DetachCause) :
    s.Alike (s.markDetaching q c) := by
  refine .of_front (by rw [State.markDetaching_frame]; rfl) fun p k hw => ?_
  obtain ⟨d, hd, phase⟩ := Option.map_eq_some_iff.mp hw
  obtain ⟨kept, -⟩ := State.Judges.busy_answerDetached hd
  exact Option.map_eq_some_iff.mpr ⟨d, kept, phase⟩

theorem State.alike_popNote (s : State) (p : Port) : s.Alike (s.popNote p) := by
  unfold State.popNote
  split
  · exact .modPort fun _ hc _ _ => hc
  · next n _ _ =>
    have latched : s.Alike (s.modPort p fun u => { u with latch := some n, lastRead := some (noteTakeWord (some n)) }) :=
      .modPort fun _ hc _ _ => hc
    exact latched.trans (.quiet rfl rfl)

theorem State.alike_timeOutRequesters (s : State) (k : SlotIx) : s.Alike (s.timeOutRequesters k) :=
  (s.alike_tell _ _ k).trans (.modSlot rfl)

theorem State.alike_foldl {α : Type} {f : State → α → State} (hf : ∀ u a, State.Alike u (f u a)) (l : List α) (s : State) :
    s.Alike (l.foldl f s) :=
  foldl_keeps (P := s.Alike) (fun u a hu => hu.trans (hf u a)) l s (.refl s)

end Alike

/-! ### Becoming FROZEN (R45, R150, R151) -/

section Freezing
variable {X : Port → SlotIx → Prop} {s : State}

/-- Due values of different unheld slots go back, one after another, and each is ripe. -/
theorem State.Shelved.foldl_backToSlot {l : List Offer} (h : s.Shelved none) (hd : s.due = [])
    (hl : ∀ k ∈ l.map Offer.slot, (s.slot k).state.taking = true ∧ s.Unheld k ∧ (s.slot k).parked = none)
    (hn : (l.map Offer.slot).Nodup) : (l.foldl backToSlot s).Shelved none := by
  induction l generalizing s with
  | nil => exact h
  | cons o os ih =>
    obtain ⟨⟨taking, unheld, unparked⟩, rest⟩ := List.forall_mem_cons.mp hl
    obtain ⟨new, nodup⟩ := List.nodup_cons.mp hn
    have exempt : s.Shelved (some o.slot) := h.exempt rfl (.inl unparked)
    have parked : (s.modSlot o.slot fun r => { r with parked := some o }).Shelved (some o.slot) :=
      exempt.park rfl rfl rfl taking (by simp [hd]) (.inr (.inr rfl))
    have back : (backToSlot s o).Shelved none :=
      parked.ripen rfl unheld (by rw [State.slot_modSlot_self]; rfl)
    have due : (backToSlot s o).due = [] := by rw [backToSlot, State.ripen_frame]; exact hd
    have unheld' (k : SlotIx) : (backToSlot s o).Unheld k ↔ s.Unheld k := by rw [backToSlot, State.ripen_frame]; rfl
    refine ih back due (fun k hk => ?_) nodup
    have other : k ≠ o.slot := fun e => new (e ▸ hk)
    rw [slot_backToSlot, if_neg other, unheld']
    exact rest k hk

/-- From `s` to `t` the slot records change in their pending values alone. -/
def State.Reparks (s t : State) : Prop := ∀ k, t.slot k = { s.slot k with parked := (t.slot k).parked }

theorem State.reparks_dueToRipe (s : State) : s.Reparks s.dueToRipe := by
  rw [dueToRipe_eq]
  refine foldl_keeps (P := s.Reparks) (fun u o hu k => ?_) _ _ fun _ => rfl
  rw [slot_backToSlot]
  split
  · next e => rw [e, hu o.slot]
  · exact hu k

theorem State.reparks_becomeFrozen (s : State) : s.Reparks s.becomeFrozen := by
  rw [becomeFrozen_eq]
  exact State.reparks_dueToRipe { s with exchange := .frozen, freezeMark := false, task := none }

theorem State.becomeFrozen_moves (s : State) : s.Moves s.becomeFrozen := fun k hk => by
  rw [s.reparks_becomeFrozen k] at hk ⊢
  exact ⟨hk, rfl⟩

theorem State.holding_becomeFrozen (s : State) (p : Port) (k : SlotIx) : s.becomeFrozen.holding p k = s.holding p k := by
  rw [State.becomeFrozen_frame]
  rfl

theorem State.becomeFrozen_shows (s : State) : s.Shows X s.becomeFrozen :=
  .of_unheld (fun p k hp => s.holding_becomeFrozen p k ▸ hp) fun k => .inl (by rw [s.reparks_becomeFrozen k])

theorem State.exchange_becomeFrozen (s : State) : s.becomeFrozen.exchange = .frozen := by rw [State.becomeFrozen_frame]

theorem State.flight_becomeFrozen (s : State) : s.becomeFrozen.flight = s.flight := by rw [State.becomeFrozen_frame]

/-- With no landing in flight, the exchange is FROZEN with every due value ripe. -/
theorem State.Shelved.becomeFrozen (h : s.Shelved none) (hf : s.flight = none) : s.becomeFrozen.Sound := by
  have frozen : { s with exchange := .frozen, freezeMark := false, task := none, due := [] }.Shelved none :=
    (h.redue (d := []) (List.nil_sublist _)).remode
  have shelved : { s with exchange := .frozen, freezeMark := false, task := none }.dueToRipe.Shelved none :=
    frozen.foldl_backToSlot rfl h.due h.dueOnce
  have finished : { s with exchange := .frozen, freezeMark := false, task := none }.dueToRipe.Alike s.becomeFrozen :=
    (((State.alike_completeAll _ .freeze).trans (State.alike_completeAll _ .step)).trans (State.alike_completeAll _ .resume))
  refine ⟨?_, finished.shelved shelved⟩
  rw [State.becomeFrozen_frame]
  exact ⟨fun hl => by simp [hf] at hl, ⟨nofun, nofun⟩, nofun, nofun, fun _ => .inl rfl, fun hd => absurd rfl hd⟩

theorem State.becomeFrozen_keeps (hf : s.flight = none) : s.Keeps X s.becomeFrozen :=
  .of_sound s.becomeFrozen_moves.ids (fun hx => by rw [s.exchange_becomeFrozen] at hx; cases hx)
    fun h => ⟨h.shelved.becomeFrozen hf, s.becomeFrozen_shows⟩

/-- The exchange state changes, with what belongs to it. -/
theorem State.keeps_of_modes {x : Exchange} {m f : Bool} {t : Option Task}
    (hm : s.Sound → { s with exchange := x, restartMark := m, freezeMark := f, task := t }.Modes)
    (hr : x = .restarting → s.exchange = .restarting) :
    s.Keeps X { s with exchange := x, restartMark := m, freezeMark := f, task := t } :=
  .of_sound (State.Moves.of_slots rfl).ids hr fun h => ⟨⟨hm h, h.shelved.remode⟩, .refl s⟩

theorem State.callFreeze_keeps (s : State) : s.Keeps X s.callFreeze := by
  unfold State.callFreeze
  split
  · next hx =>
    refine .ite (fun _ => ?_) fun hf => becomeFrozen_keeps (Option.not_isSome_iff_eq_none.mp hf)
    refine keeps_of_modes (x := .freezing) (m := s.restartMark) (f := s.freezeMark) (t := s.task) (fun h => ?_) nofun
    obtain ⟨-, tasked, freezing, -, ripe, -⟩ := h.modes
    rw [hx] at tasked freezing ripe
    exact ⟨fun _ => .inr (.inl rfl), by simpa using tasked, by simpa using freezing, nofun, by simpa using ripe, fun _ => .inr rfl⟩
  · next hx =>
    have marks : s.Keeps X { s with freezeMark := true } := by
      refine keeps_of_modes (x := s.exchange) (m := s.restartMark) (f := true) (t := s.task) (fun h => ?_) id
      obtain ⟨flying, tasked, -, restarting, ripe, due⟩ := h.modes
      exact ⟨flying, tasked, fun _ => hx, restarting, ripe, due⟩
    dsimp only
    split
    · refine .ite (fun _ => marks) fun hf => marks.trans ?_
      exact becomeFrozen_keeps (Option.not_isSome_iff_eq_none.mp hf)
    · exact marks
    · exact marks
  all_goals exact .refl s

/-- The drain goes on with no landing in flight, or ends. -/
theorem State.drainNext_keeps (hf : s.flight = none) (hx : s.exchange = .stepping) : s.Keeps X s.drainNext := by
  unfold State.drainNext
  refine .ite (fun _ => becomeFrozen_keeps hf) fun hm => ?_
  split
  · refine keeps_of_modes (x := s.exchange) (m := s.restartMark) (f := s.freezeMark) (fun h => ?_) id
    obtain ⟨flying, -, freezing, restarting, ripe, due⟩ := h.modes
    exact ⟨flying, iff_of_true rfl hx, freezing, restarting, ripe, due⟩
  · next hr =>
    have ended : s.Keeps X { s with exchange := .running, task := none } := by
      refine keeps_of_modes (x := .running) (m := s.restartMark) (f := s.freezeMark) (t := none) (fun _ => ?_) nofun
      exact ⟨fun _ => .inl rfl, ⟨nofun, nofun⟩, fun h => absurd h hm, nofun, fun h => absurd hr h, fun _ => .inl rfl⟩
    exact ended.trans (State.alike_completeAll _ .resume).keeps

/-- The end of a landing at the Control Unit, which does nothing with another in flight. -/
theorem State.landingEnded_keeps (s : State) : s.Keeps X s.landingEnded := by
  unfold State.landingEnded
  refine .ite (fun _ => .refl s) fun hn => ?_
  have hf : s.flight = none := by
    cases h : s.flight with
    | none => rfl
    | some l => simp [h] at hn
  split
  · exact becomeFrozen_keeps hf
  · next hx =>
    split
    · exact drainNext_keeps hf hx
    · exact becomeFrozen_keeps hf
    · exact becomeFrozen_keeps hf
  all_goals exact .refl s

theorem State.offerAct_keeps (s : State) (kind : ActKind) (d : Bool) (k : SlotIx) (src : Source) :
    s.Keeps X (s.offerAct kind d k src) := by
  have recorded : s.Keeps X (s.recordMatch kind d k src) :=
    (State.Alike.quiet (s := s) (t := s.recordMatch kind d k src) rfl rfl).keeps
  unfold State.offerAct
  refine .ite (fun _ => ?_) fun _ => .refl s
  dsimp only
  split
  · exact recorded
  all_goals exact recorded.trans (State.callFreeze_keeps _)

end Freezing
end Sys2Proof.Machine
end

section
namespace Sys2Proof.Machine
open Sys2Proof Sys2Proof.Publication

/-! ### The beginning of a landing (R36, R37, R38) -/

section Landings
variable {X : Port → SlotIx → Prop} {s t : State} {o : Offer} {d : Bool} {gone stays : State → State}

theorem Slot.land_state_taking (o : Offer) (r : Slot) (h : r.state.taking = true) : (r.land o).state.taking = true := by
  unfold Slot.land
  cases e : r.state <;> simp [e, SlotState.taking] at h ⊢

theorem Slot.land_state_unused (o : Offer) (r : Slot) : (r.land o).state = .unused ↔ r.state = .unused := by
  unfold Slot.land
  cases r.state <;> simp

/-- May a landing of `o` begin: on an unheld slot, in RUNNING or STEPPING? -/
def State.MayLand (s : State) (o : Offer) : Prop := s.Unheld o.slot ∧ (s.exchange = .running ∨ s.exchange = .stepping)

theorem State.Sound.beginLanding (h : s.Sound) (hl : s.MayLand o) : (s.beginLanding o).Sound := by
  obtain ⟨unheld, hx⟩ := hl
  obtain ⟨-, tasked, freezing, restarting, ripe, due⟩ := h.modes
  have landed : (s.modSlot o.slot (Slot.land o)).Shelved none :=
    h.shelved.restate rfl (Slot.land_state_taking o _) (Slot.land_state_unused o _).mp
  exact ⟨⟨fun _ => hx.imp_right .inr, tasked, freezing, restarting, ripe, due⟩,
    landed.fly fun l hl => Option.some.inj hl ▸ unheld⟩

theorem State.beginLanding_moves (s : State) (o : Offer) : s.Moves (s.beginLanding o) :=
  (State.Moves.set (k := o.slot) (r := (s.slot o.slot).land o)
    fun h => ⟨mt (Slot.land_state_unused o _).mpr h, rfl⟩).trans (.of_slots rfl)

theorem State.slot_beginLanding_ne {k : SlotIx} (hk : k ≠ o.slot) : (s.beginLanding o).slot k = s.slot k :=
  (s.slot_modSlot k o.slot (Slot.land o)).trans (if_neg hk)

theorem State.beginLanding_shows (hu : s.Unheld o.slot) : s.Shows X (s.beginLanding o) :=
  .of_unheld (fun _ _ => id) fun k => by
    by_cases hk : k = o.slot
    · exact .inr (hk ▸ hu)
    · exact .inl (by rw [State.slot_beginLanding_ne hk])

/-- What a relation between states holds of every outcome of an offered landing. -/
theorem State.tryLanding_induction {P : State → Prop} (hg : ∀ w, P ((gone { s with watch := w }).beginLanding o))
    (hf : ∀ u : State, P u → P u.callFreeze) (hs : ∀ w, P (stays { s with watch := w }).becomeFrozen) :
    P (s.tryLanding o d gone stays) := by
  rcases s.tryLanding_cases o d gone stays with ⟨-, e⟩ | ⟨-, e⟩ | ⟨-, e⟩ <;> rw [e, State.recordLanding_frame]
  · exact hg _
  · exact hf _ (hg _)
  · exact hs _

theorem State.tryLanding_ids (hg : ∀ w, (gone { s with watch := w }).IdentifierLaw)
    (hs : ∀ w, (stays { s with watch := w }).IdentifierLaw) : (s.tryLanding o d gone stays).IdentifierLaw :=
  tryLanding_induction (P := State.IdentifierLaw) (fun w => (State.beginLanding_moves _ o).ids (hg w))
    (fun u hu => (u.callFreeze_keeps (X := nobody)).ids hu) fun w => (State.becomeFrozen_moves _).ids (hs w)

theorem State.tryLanding_runs (hg : ∀ w, (gone { s with watch := w }).exchange ≠ .restarting) :
    (s.tryLanding o d gone stays).exchange ≠ .restarting :=
  tryLanding_induction (P := fun u => u.exchange ≠ .restarting) hg (fun u hu hx => hu ((u.callFreeze_keeps (X := nobody)).runs hx))
    fun w hx => by rw [State.exchange_becomeFrozen] at hx; cases hx

/-- A landing may begin where the value has left its place, and leaves all in order where the watch has it stay. -/
theorem State.tryLanding_sound
    (hg : ∀ w, let u := gone { s with watch := w }; u.Sound ∧ s.Shows X u ∧ u.MayLand o)
    (hs : ∀ w, let u := stays { s with watch := w }; u.Shelved none ∧ s.Shows X u ∧ u.flight = none) :
    (s.tryLanding o d gone stays).Sound ∧ s.Shows X (s.tryLanding o d gone stays) := by
  refine tryLanding_induction (P := fun u => u.Sound ∧ s.Shows X u) (fun w => ?_) (fun u hu => ?_) fun w => ?_
  · obtain ⟨sound, shows, may⟩ := hg w
    exact ⟨sound.beginLanding may, shows.trans (State.beginLanding_shows may.1)⟩
  · obtain ⟨sound, shows⟩ := hu
    exact ⟨(u.callFreeze_keeps (X := X)).sound sound, shows.trans (u.callFreeze_keeps.shows sound)⟩
  · obtain ⟨shelved, shows, landed⟩ := hs w
    exact ⟨shelved.becomeFrozen landed, shows.trans (State.becomeFrozen_shows _)⟩

end Landings

/-! ### The next value (R34 to R36, R41, R44, R153, R155) -/

section Taking
variable {X : Port → SlotIx → Prop} {s : State} {o : Offer} {rest : List Offer} {k : SlotIx}

/-- Does the Commit Unit take an item from `s`: in RUNNING or STEPPING, with no landing in flight? -/
def State.Takes (s : State) : Prop := s.flight = none ∧ (s.exchange = .running ∨ s.exchange = .stepping)

theorem State.Takes.runs (h : s.Takes) : s.exchange ≠ .restarting := by
  obtain ⟨-, hx | hx⟩ := h <;> rw [hx] <;> decide

/-- The slots, the holds and the values in them are those of `s`. -/
theorem State.Shows.of_slots {t : State} (es : t.slots = s.slots) (eh : t.holds = s.holds) : s.Shows X t :=
  .of_unheld (fun p k hp => by rwa [State.holding, State.hold, eh] at hp) fun k => .inl (by rw [State.slot, es]; rfl)

/-- The slots but for one pending value, and the holds, are those of `s`. -/
theorem State.Shows.setParked {t : State} {x : Option Offer} (es : t.slots = (s.setParked k x).slots) (eh : t.holds = s.holds) :
    s.Shows X t :=
  .of_unheld (fun p k hp => by rwa [State.holding, State.hold, eh] at hp) fun j => .inl (by
    have slot : t.slot j = (s.setParked k x).slot j := congrArg (fun table => table.get j) es
    rw [slot, State.setParked, State.slot_modSlot]
    split
    · next e => rw [e]
    · rfl)

theorem State.setParked_moves (s : State) (k : SlotIx) (o : Option Offer) : s.Moves (s.setParked k o) :=
  .set fun h => ⟨h, rfl⟩

theorem State.alike_watch (s : State) (w : Watch) : s.Alike { s with watch := w } := .quiet rfl rfl

/-- What is to be shown of a value that is taken from its place in a sound state and offered to the watch: leaving its place, and
staying there. -/
theorem State.tryLanding_keeps {d : Bool} {gone stays : State → State} (ht : s.Takes)
    (gids : ∀ w, (State.Moves s (gone { s with watch := w }))) (sids : ∀ w, (State.Moves s (stays { s with watch := w })))
    (gmode : ∀ w, (gone { s with watch := w }).exchange = s.exchange)
    (hg : ∀ w, { s with watch := w }.Sound →
      (gone { s with watch := w }).Sound ∧ s.Shows X (gone { s with watch := w }) ∧ (gone { s with watch := w }).Unheld o.slot)
    (hs : ∀ w, { s with watch := w }.Sound →
      (stays { s with watch := w }).Shelved none ∧ s.Shows X (stays { s with watch := w }) ∧
        (stays { s with watch := w }).flight = s.flight) :
    s.Keeps X (s.tryLanding o d gone stays) := by
  obtain ⟨landed, hx⟩ := ht
  refine .of_sound (fun hi => ?_) (fun hx' => ?_) fun h => ?_
  · exact State.tryLanding_ids (fun w => (gids w).ids hi) fun w => (sids w).ids hi
  · exact absurd hx' (State.tryLanding_runs fun w => by rw [gmode w]; exact State.Takes.runs ⟨landed, hx⟩)
  · refine State.tryLanding_sound (fun w => ?_) fun w => ?_
    · obtain ⟨sound, shows, unheld⟩ := hg w ((s.alike_watch w).sound h)
      exact ⟨sound, shows, unheld, by rw [gmode w]; exact hx⟩
    · obtain ⟨shelved, shows, flight⟩ := hs w ((s.alike_watch w).sound h)
      exact ⟨shelved, shows, flight.trans landed⟩

/-- The head entry lands on its unheld slot, or is parked on its held one. -/
theorem State.takeHead_keeps (ht : s.Takes) (hq : s.queue = o :: rest) : s.Keeps X (s.takeHead o rest) := by
  unfold State.takeHead
  refine .ite (fun hu => ?_) fun hu => ?_
  · refine State.tryLanding_keeps ht (fun _ => .of_slots rfl) (fun _ => .of_slots rfl) (fun _ => rfl) (fun w h => ?_) fun w h => ?_
    · obtain ⟨-, others⟩ := List.forall_mem_cons.mp (hq ▸ h.shelved.entries)
      exact ⟨⟨h.modes.lessen rfl id id id fun _ => id, h.shelved.requeue others⟩, .of_slots rfl rfl, State.unheld_iff.mp hu⟩
    · obtain ⟨first, others⟩ := List.forall_mem_cons.mp (hq ▸ h.shelved.entries)
      exact ⟨h.shelved.requeue (List.forall_mem_cons.mpr ⟨first, others⟩), .of_slots rfl rfl, rfl⟩
  · have held : ¬s.Unheld o.slot := mt State.unheld_iff.mpr hu
    refine .of_sound (State.Moves.ids (.set fun h => ⟨h, rfl⟩)) id fun h => ?_
    obtain ⟨first, others⟩ := List.forall_mem_cons.mp (hq ▸ h.shelved.entries)
    have dequeued : { s with queue := rest }.Shelved none := h.shelved.requeue others
    have parked : ({ s with queue := rest }.park o).Shelved none :=
      dequeued.park rfl rfl rfl first (h.shelved.not_due_of_held held) (.inl held)
    refine ⟨⟨h.modes.lessen rfl id id id fun _ => id, parked⟩, .of_unheld (fun _ _ => id) fun k => .inl ?_⟩
    rw [State.park, State.slot_modSlot]
    split
    · next e => subst e; rfl
    · rfl

theorem State.takeDue_keeps (ht : s.Takes) (hd : s.due = o :: rest) : s.Keeps X (s.takeDue o rest) := by
  refine State.tryLanding_keeps ht (fun _ => .of_slots rfl) (fun _ => .of_slots rfl) (fun _ => rfl) (fun w h => ?_) fun w h => ?_
  · obtain ⟨⟨-, unheld, -⟩, -⟩ := List.forall_mem_cons.mp (hd ▸ h.shelved.due)
    have sublist : (rest.map Offer.slot).Sublist (s.due.map Offer.slot) := hd ▸ List.sublist_cons_self _ _
    exact ⟨⟨h.modes.lessen rfl id id (fun none => by rw [hd] at none; cases none) fun _ => id,
      h.shelved.redue sublist⟩, .of_slots rfl rfl, unheld⟩
  · have sublist : ((o.marked :: rest).map Offer.slot).Sublist (s.due.map Offer.slot) := hd ▸ List.Sublist.refl _
    exact ⟨h.shelved.redue sublist, .of_slots rfl rfl, rfl⟩

theorem State.takeRipe_keeps (ht : s.Takes) (hk : k ∈ s.ripe) : s.Keeps X (s.takeRipe k) := by
  unfold State.takeRipe
  split
  · next none =>
    refine .of_sound (State.Moves.of_slots rfl).ids id fun h => ?_
    have parked := ((h.shelved.ripe k).mp hk).2.1
    rw [none] at parked
    cases parked
  · next o ho =>
    refine State.tryLanding_keeps ht (fun _ => s.setParked_moves k none) (fun _ => s.setParked_moves k _) (fun _ => rfl) (fun w h => ?_)
      fun w h => ?_
    · obtain ⟨unheld, -⟩ := (h.shelved.ripe k).mp hk
      obtain ⟨slot, -⟩ := h.shelved.parked k o ho
      have off : (({ s with watch := w }.unripen k).setParked k none).Shelved none := (h.shelved.unripen (.inl rfl)).unpark rfl
      refine ⟨⟨h.modes.lessen rfl id (fun none => ?_) id fun _ => id, off⟩, .setParked (x := none) rfl rfl, slot ▸ unheld⟩
      rw [show s.ripe = [] from none] at hk
      cases hk
    · obtain ⟨slot, taking⟩ := h.shelved.parked k o ho
      have unset : (s.slot k).parked ≠ none := by rw [ho]; nofun
      have filled : (s.slot k).parked.isSome = true := by rw [ho]; rfl
      have marked : ({ s with watch := w }.setParked k o.marked).Shelved none :=
        h.shelved.park rfl rfl slot taking (h.shelved.not_due_of_parked unset) (.inr (.inl filled))
      exact ⟨marked, .setParked (x := some o.marked) rfl rfl, rfl⟩

/-- What a drain turns to next, where it does not end, is the first slot of the ripe list. -/
theorem State.drainNext_task {j : SlotIx} (h : s.drainNext.task = some (.drain j)) :
    j ∈ s.ripe ∧ s.drainNext = { s with task := some (.drain j) } := by
  unfold State.drainNext at h ⊢
  split at h
  · rw [State.becomeFrozen_frame] at h
    cases h
  · next hm =>
    rw [if_neg hm]
    split at h
    · next k _ hr =>
      cases h
      exact ⟨by rw [hr]; exact List.mem_cons_self, rfl⟩
    · rw [State.completeAll_frame] at h
      cases h

theorem State.takeDrain_keeps (hf : s.flight = none) (hx : s.exchange = .stepping) : s.Keeps X (s.takeDrain k) := by
  have goesOn : s.Keeps X s.drainNext := State.drainNext_keeps hf hx
  unfold State.takeDrain
  refine .ite (fun hk => State.takeRipe_keeps ⟨hf, .inr hx⟩ hk) fun _ => ?_
  dsimp only
  split
  · next j ht =>
    obtain ⟨hj, e⟩ := State.drainNext_task ht
    refine goesOn.trans ?_
    rw [e]
    exact State.takeRipe_keeps (s := { s with task := some (.drain j) }) ⟨hf, .inr hx⟩ hj
  · exact goesOn
  · exact goesOn

theorem State.takeStep_keeps (hf : s.flight = none) (hx : s.exchange = .stepping) (i : Item) : s.Keeps X (s.takeStep i) := by
  have ends : s.Keeps X s.becomeFrozen := State.becomeFrozen_keeps hf
  cases i with
  | ripe k => exact .ite (fun hk => State.takeRipe_keeps ⟨hf, .inr hx⟩ hk) fun _ => ends
  | head n =>
    unfold State.takeStep
    dsimp only
    split
    · next o rest hq =>
      have taken : s.Keeps X (s.takeHead o rest) := State.takeHead_keeps ⟨hf, .inr hx⟩ hq
      refine .ite (fun _ => .ite (fun _ => taken) fun hu => taken.trans ?_) fun _ => ends
      rw [State.takeHead, if_neg hu]
      exact State.becomeFrozen_keeps hf
    · exact ends

theorem State.takeNext_keeps (s : State) : s.Keeps X s.takeNext := by
  unfold State.takeNext
  refine .ite (fun _ => .refl s) fun hn => ?_
  have hf : s.flight = none := by
    cases h : s.flight with
    | none => rfl
    | some l => simp [h] at hn
  split
  · next hx =>
    have takes : s.Takes := ⟨hf, .inl hx⟩
    split
    · exact State.takeDue_keeps takes ‹_›
    · split
      · exact State.takeHead_keeps takes ‹_›
      · exact .refl s
  · next hx =>
    split
    · exact State.takeStep_keeps hf hx _
    · exact State.takeDrain_keeps hf hx
    · exact .refl s
  all_goals exact .refl s

end Taking
end Sys2Proof.Machine
end

section
namespace Sys2Proof.Machine
open Sys2Proof Sys2Proof.Publication Sys2Proof.Views

/-! ### The completion of a retirement (R16, R56) -/

section Retirement
variable {X : Port → SlotIx → Prop} {s : State} {k : SlotIx}

/-- No VIEW waits for a slot whose VIEWs are left to be answered RETIRING. -/
theorem State.phaseOf_viewsGone {p : Port} {j : SlotIx} (h : (s.viewsGone k).phaseOf p = some (.behindLanding j)) :
    s.phaseOf p = some (.behindLanding j) ∧ j ≠ k := by
  have unit : (s.viewsGone k).port p = unitGone s k p := by
    rw [viewsGone_eq]
    exact PerPort.get_ofFn _ p
  rw [State.phaseOf, unit] at h
  by_cases hw : s.phaseOf p = some (.behindLanding k)
  · obtain ⟨b, hb, -⟩ := Option.map_eq_some_iff.mp hw
    simp [unitGone, hw, hb] at h
  · rw [unitGone_of_not_waiting hw] at h
    refine ⟨h, ?_⟩
    rintro rfl
    exact hw h

theorem State.phaseOf_completeRetirement {p : Port} {j : SlotIx}
    (h : (s.completeRetirement k).phaseOf p = some (.behindLanding j)) : s.phaseOf p = some (.behindLanding j) ∧ j ≠ k := by
  obtain ⟨waits, other⟩ := State.phaseOf_viewsGone h
  rw [State.phaseOf, State.port_modSlot, State.port_sealNotes] at waits
  exact ⟨(s.alike_tell (s.subscribers k) .retired k).waits p j waits, other⟩

theorem State.retirementDue_iff :
    s.retirementDue k = true ↔ (s.slot k).state = .retiring ∧ s.Unheld k ∧ s.landingMark k = false := by
  simp [State.retirementDue, State.unheld_iff, and_assoc]

/-- The completion of the retirement of an unheld slot, on which nothing waits but VIEWs. -/
theorem State.completeRetirement_keeps (hd : s.retirementDue k = true) : s.Keeps X (s.completeRetirement k) := by
  obtain ⟨retiring, unheld, -⟩ := State.retirementDue_iff.mp hd
  have frame := s.completeRetirement_frame k
  dsimp only at frame
  have gone (p : Port) (j : SlotIx) := State.phaseOf_completeRetirement (s := s) (k := k) (p := p) (j := j)
  generalize s.completeRetirement k = t at frame gone
  let u : State := { s with ports := t.ports, notes := t.notes, reports := t.reports }
  have alike : s.Alike u := .of_front rfl fun p j hw => (gone p j hw).1
  have cleared : t = { u with slots := u.slots.set k Slot.cleared } := frame
  refine .of_sound (State.Moves.ids ?_) (fun hx => by rw [frame] at hx; exact hx) fun h => ⟨?_, ?_⟩
  · rw [cleared]
    exact .trans (.of_slots rfl) (.set fun hne => absurd rfl hne)
  · have sound := alike.sound h
    have idle (hs : (s.slot k).state.taking = true) : False := by rw [retiring] at hs; cases hs
    rw [cleared]
    refine ⟨sound.modes.lessen rfl id id id fun _ => id, sound.shelved.setSlot (.inl rfl) (.inr fun o ho e => ?_)
      (fun hk => (idle (h.shelved.due k hk).1).elim) nofun (iff_of_false (fun hk => ?_) (fun ⟨_, hp, _⟩ => Bool.false_ne_true hp))
      fun _ => ⟨unheld, fun p hw => (gone p k hw).2 rfl⟩⟩
    · exact idle (e ▸ h.shelved.entries o ho)
    · obtain ⟨o, ho⟩ := Option.isSome_iff_exists.mp ((h.shelved.ripe k).mp hk).2.1
      exact idle (h.shelved.parked k o ho).2
  · rw [cleared]
    refine .of_unheld (fun _ _ => id) fun j => ?_
    by_cases e : j = k
    · exact .inr (e ▸ unheld)
    · exact .inl (congrArg Slot.value (Table.get_set_ne _ e _))

theorem State.testRetirement_keeps (s : State) (k : SlotIx) : s.Keeps X (s.testRetirement k) :=
  .ite State.completeRetirement_keeps fun _ => .refl s

end Retirement

/-! ### The end of a hold (R43, R58) -/

section HoldEnds
variable {X : Port → SlotIx → Prop} {s : State} {k : SlotIx} {p : Port}

theorem State.toDue_sound {o : Offer} (m : s.Modes) (h : s.Shelved (some k)) (hu : s.Unheld k) (hp : (s.slot k).parked = some o)
    (hx : s.exchange = .running ∨ s.exchange = .freezing) : (s.toDue k o).Sound := by
  obtain ⟨flying, tasked, freezing, restarting, ripe, -⟩ := m
  obtain ⟨slot, taking⟩ := h.parked k o hp
  have unparked := h.unpark rfl
  have due : ((insertBy (fun x => x.order) o s.due).map Offer.slot).Perm (k :: s.due.map Offer.slot) := by
    rw [← slot]
    exact (insertBy_perm _ o s.due).map Offer.slot
  have new : k ∉ s.due.map Offer.slot := h.not_due_of_parked (by rw [hp]; nofun)
  have record : (s.setParked k none).slot k = { s.slot k with parked := none } := State.slot_modSlot_self s k _
  refine ⟨⟨flying, tasked, freezing, restarting, ripe, fun _ => hx⟩, unparked.entries, fun j hj => ?_,
    due.nodup_iff.mpr (List.nodup_cons.mpr ⟨new, h.dueOnce⟩), unparked.parked, unparked.ripe, unparked.ripeOnce, unparked.held,
    unparked.waits, unparked.flying⟩
  rcases List.mem_cons.mp (due.mem_iff.mp hj) with rfl | hj
  · show ((s.setParked j none).slot j).state.taking = true ∧ s.Unheld j ∧ ((s.setParked j none).slot j).parked = none
    rw [record]
    exact ⟨taking, hu, rfl⟩
  · exact unparked.due j hj

/-- The Commit Unit acts on the pending value of a slot whose hold set has become empty, and all is in order again. -/
theorem State.commitOnEmpty_sound (m : s.Modes) (h : s.Shelved (some k)) (hu : s.Unheld k) (hx : s.exchange ≠ .restarting) :
    (s.commitOnEmpty k).Sound ∧ s.Shows X (s.commitOnEmpty k) := by
  unfold State.commitOnEmpty
  split
  · next hp => exact ⟨⟨m, h.unexempt rfl (.inl hp)⟩, .refl s⟩
  · next o hp =>
    obtain ⟨slot, taking⟩ := h.parked k o hp
    have unset : (s.slot k).parked ≠ none := by rw [hp]; nofun
    have filled : (s.slot k).parked.isSome = true := by rw [hp]; rfl
    have ripens (hx' : s.exchange = .frozen ∨ s.exchange = .stepping) (hd : s.due = []) :
        (s.ripen k).Sound ∧ s.Shows X (s.ripen k) := by
      have shelved := h.ripen rfl hu filled
      rw [State.ripen_frame] at shelved ⊢
      exact ⟨⟨⟨m.flying, m.tasked, m.freezing, m.restarting, fun _ => hx', m.due⟩, shelved⟩, .of_slots rfl rfl⟩
    split
    · next hr =>
      have due : (s.toDue k o).Sound ∧ s.Shows X (s.toDue k o) :=
        ⟨State.toDue_sound m h hu hp (.inl hr), .setParked (x := none) rfl rfl⟩
      split
      · exact due
      · next hn =>
        have landed : s.flight = none := by
          cases hf : s.flight with
          | none => rfl
          | some l => simp [hf] at hn
        refine State.tryLanding_sound (fun w => ?_) fun w => ?_
        · have off : ({ s with watch := w }.setParked k none).Shelved none :=
            ((s.alike_watch w).shelved h).unpark rfl
          exact ⟨⟨m.lessen rfl id id id fun _ => id, off⟩, .setParked (x := none) rfl rfl, slot ▸ hu, .inl hr⟩
        · have marked : ({ s with watch := w }.setParked k (some o.marked)).Shelved (some k) :=
            ((s.alike_watch w).shelved h).park rfl rfl slot taking (h.not_due_of_parked unset) (.inr (.inl filled))
          have ripe := marked.ripen rfl hu (by rw [State.setParked, State.slot_modSlot_self]; rfl)
          refine ⟨ripe, ?_, ?_⟩ <;> rw [State.ripen_frame]
          · exact .setParked (x := some o.marked) rfl rfl
          · exact landed
    · next hr => exact ⟨State.toDue_sound m h hu hp (.inr hr), .setParked (x := none) rfl rfl⟩
    · next hr => exact ripens (.inl hr) (by by_contra hne; rcases m.due hne with e | e <;> rw [hr] at e <;> cases e)
    · next hr => exact ripens (.inr hr) (by by_contra hne; rcases m.due hne with e | e <;> rw [hr] at e <;> cases e)
    · next hr => exact absurd hr hx

theorem State.commitOnEmpty_ids (hi : s.IdentifierLaw) : (s.commitOnEmpty k).IdentifierLaw := by
  unfold State.commitOnEmpty
  split
  · exact hi
  · next o _ =>
    have due : (s.toDue k o).IdentifierLaw := ((s.setParked_moves k none).trans (.of_slots rfl)).ids hi
    have ripe (u : State) (hu : u.IdentifierLaw) : (u.ripen k).IdentifierLaw := by
      rw [State.ripen_frame]
      exact hu
    split
    · split
      · exact due
      · exact State.tryLanding_ids (fun _ => (State.setParked_moves _ k none).ids hi)
          fun _ => ripe _ ((State.setParked_moves _ k _).ids hi)
    · exact due
    · exact ripe s hi
    · exact ripe s hi
    · exact hi

theorem State.commitOnEmpty_runs (hx : s.exchange ≠ .restarting) : (s.commitOnEmpty k).exchange ≠ .restarting := by
  unfold State.commitOnEmpty
  split
  · exact hx
  · split
    · split
      · exact hx
      · exact State.tryLanding_runs fun _ => hx
    · exact hx
    · rw [State.ripen_frame]; exact hx
    · rw [State.ripen_frame]; exact hx
    · exact hx

theorem State.holding_setHold_none (p q : Port) (j : SlotIx) :
    (s.setHold p none).holding q j = if q = p then false else s.holding q j := by
  unfold State.holding
  rw [State.hold_setHold]
  by_cases h : q = p <;> simp [h]

/-- A port lets go of its hold; the pending value of its slot, if that is unheld now, is still to be acted on. -/
theorem State.Shelved.setHold_none {h : Hold} (g : s.Shelved none) (hh : s.hold p = some h) :
    (s.setHold p none).Shelved (some h.slot) := by
  have held : s.holding p h.slot = true := (s.holding_iff p h.slot).mpr ⟨h, hh, rfl⟩
  have fewer {q : Port} {j : SlotIx} (hq : (s.setHold p none).holding q j = true) : s.holding q j = true := by
    rw [State.holding_setHold_none] at hq
    split at hq
    · cases hq
    · exact hq
  have unheld {j : SlotIx} (hu : s.Unheld j) : (s.setHold p none).Unheld j := fun q => by
    rw [State.holding_setHold_none, hu q, ite_self]
  have same {j : SlotIx} (hj : j ≠ h.slot) (hu : (s.setHold p none).Unheld j) : s.Unheld j := fun q => by
    have := hu q
    rw [State.holding_setHold_none] at this
    split at this
    · next e =>
      rw [e, State.holding, hh]
      simpa using Ne.symm hj
    · exact this
  refine ⟨g.entries, fun j hj => ?_, g.dueOnce, g.parked, fun j => ?_, g.ripeOnce, fun q j hq => g.held q j (fewer hq),
    fun q j hq => ?_, fun l hl => unheld (g.flying l hl)⟩
  · obtain ⟨taking, unheldj, unparked⟩ := g.due j hj
    exact ⟨taking, unheld unheldj, unparked⟩
  · refine (g.ripe j).trans ?_
    by_cases e : j = h.slot
    · subst e
      exact iff_of_false (fun ⟨hu, _⟩ => Bool.false_ne_true ((hu p).symm.trans held)) fun ⟨_, _, hne⟩ => hne rfl
    · exact ⟨fun ⟨hu, hp, _⟩ => ⟨unheld hu, hp, fun e' => e (Option.some.inj e').symm⟩,
        fun ⟨hu, hp, _⟩ => ⟨same e hu, hp, nofun⟩⟩
  · obtain ⟨other, used⟩ := g.waits q j hq
    exact ⟨by rw [State.holding_setHold_none, other, ite_self], used⟩

/-- The end of a hold, with every consequence of a last release. -/
theorem State.endHold_keeps (s : State) (p : Port) : s.Keeps X (s.endHold p) := by
  unfold State.endHold
  split
  · exact .refl s
  · next h hh =>
    have fewer : s.Shows X (s.setHold p none) := .of_unheld (fun q j hq => by
      rw [State.holding_setHold_none] at hq
      split at hq
      · cases hq
      · exact hq) fun _ => .inl rfl
    have modes (g : s.Sound) : (s.setHold p none).Modes := g.modes.lessen rfl id id id fun k hu q => by
      rw [State.holding_setHold_none, hu q, ite_self]
    unfold State.holdLeft
    split
    · next hu =>
      refine .trans (t := (s.setHold p none).commitOnEmpty h.slot) ?_ (State.testRetirement_keeps _ _)
      refine .of_sound (fun hi => State.commitOnEmpty_ids (s := s.setHold p none) hi) (fun hx => ?_) fun g => ?_
      · by_contra hne
        exact State.commitOnEmpty_runs (s := s.setHold p none) hne hx
      · have runs : s.exchange ≠ .restarting := fun hx => by
          have unheld := (g.modes.restarting hx).2 h.slot p
          rw [(s.holding_iff p h.slot).mpr ⟨h, hh, rfl⟩] at unheld
          cases unheld
        have ⟨sound, shows⟩ := State.commitOnEmpty_sound (X := X) (modes g) (g.shelved.setHold_none hh) (State.unheld_iff.mp hu) runs
        exact ⟨sound, fewer.trans shows⟩
    · next hu =>
      exact .of_sound (State.Moves.of_slots rfl).ids id fun g =>
        ⟨⟨modes g, (g.shelved.setHold_none hh).unexempt rfl (.inr (mt State.unheld_iff.mpr hu))⟩, fewer⟩

end HoldEnds
end Sys2Proof.Machine
end

section
namespace Sys2Proof.Machine
open Sys2Proof Sys2Proof.Publication Sys2Proof.Views

/-! ### What the end of a hold leaves of the other slots -/

/-- Slot `k` keeps its state, and its landing-in-progress mark. -/
def State.Rests (k : SlotIx) (s t : State) : Prop := (t.slot k).state = (s.slot k).state ∧ t.landingMark k = s.landingMark k

section Rests
variable {s t u : State} {k j : SlotIx} {p : Port}

theorem State.Rests.refl (k : SlotIx) (s : State) : s.Rests k s := ⟨rfl, rfl⟩

theorem State.Rests.trans (h : s.Rests k t) (g : t.Rests k u) : s.Rests k u := ⟨g.1.trans h.1, g.2.trans h.2⟩

theorem State.Rests.of_flight (hs : (t.slot k).state = (s.slot k).state) (hf : t.flight = s.flight) : s.Rests k t :=
  ⟨hs, by rw [State.landingMark, State.landingMark, hf]⟩

theorem State.rests_becomeFrozen (s : State) : s.Rests k s.becomeFrozen :=
  .of_flight (by rw [s.reparks_becomeFrozen k]) s.flight_becomeFrozen

theorem State.rests_callFreeze (s : State) : s.Rests k s.callFreeze := by
  unfold State.callFreeze
  split
  · split
    · exact ⟨rfl, rfl⟩
    · exact s.rests_becomeFrozen
  · dsimp only
    split
    · split
      · exact ⟨rfl, rfl⟩
      · exact State.rests_becomeFrozen { s with freezeMark := true }
    all_goals exact ⟨rfl, rfl⟩
  all_goals exact .refl k s

theorem State.rests_setParked (o : Option Offer) (hj : j ≠ k) : s.Rests j (s.setParked k o) :=
  .of_flight (by rw [State.setParked, State.slot_modSlot, if_neg hj]) rfl

/-- The value acted on lands, goes to the due list or becomes ripe on its own slot. -/
theorem State.rests_commitOnEmpty (hp : ∀ o, (s.slot k).parked = some o → o.slot = k) (hj : j ≠ k) : s.Rests j (s.commitOnEmpty k) := by
  have ripen (u : State) : u.Rests j (u.ripen k) := by
    rw [State.ripen_frame]
    exact ⟨rfl, rfl⟩
  unfold State.commitOnEmpty
  split
  · exact .refl j s
  · next o ho =>
    split
    · split
      · exact s.rests_setParked none hj
      · next hn =>
        have landed : s.flight = none := by
          cases hf : s.flight with
          | none => rfl
          | some l => simp [hf] at hn
        have elsewhere : j ≠ o.slot := hp o ho ▸ hj
        refine State.tryLanding_induction (P := s.Rests j) (fun w => ⟨?_, ?_⟩) (fun u hu => hu.trans u.rests_callFreeze) fun w => ?_
        · rw [State.slot_beginLanding_ne elsewhere]
          exact (s.rests_setParked none hj).1
        · have mark : s.landingMark j = false := by simp [State.landingMark, landed]
          rw [mark]
          simpa [State.landingMark, State.beginLanding] using Ne.symm elsewhere
        · exact ((State.rests_setParked (s := { s with watch := w }) _ hj).trans (ripen _)).trans (State.rests_becomeFrozen _)
    · exact s.rests_setParked none hj
    · exact ripen s
    · exact ripen s
    · exact .refl j s

theorem State.rests_completeRetirement (hj : j ≠ k) : s.Rests j (s.completeRetirement k) := by
  rw [State.completeRetirement_frame]
  exact .of_flight (congrArg Slot.state (Table.get_set_ne s.slots hj Slot.cleared)) rfl

theorem State.rests_testRetirement (hj : j ≠ k) : s.Rests j (s.testRetirement k) := by
  unfold State.testRetirement
  split
  · exact State.rests_completeRetirement hj
  · exact .refl j s

/-- The end of a port's hold leaves the state of another slot than the one held, and begins no landing on it. -/
theorem State.Sound.rests_endHold (h : s.Sound) (hj : s.holding p j = false) : s.Rests j (s.endHold p) := by
  unfold State.endHold
  split
  · exact .refl j s
  · next g hg =>
    have other : j ≠ g.slot := by
      rintro rfl
      rw [(s.holding_iff p g.slot).mpr ⟨g, hg, rfl⟩] at hj
      cases hj
    unfold State.holdLeft
    split
    · exact (State.rests_commitOnEmpty (s := s.setHold p none) (fun o ho => (h.shelved.parked _ o ho).1) other).trans
        (State.rests_testRetirement other)
    · exact ⟨rfl, rfl⟩

theorem State.hold_endHold (s : State) (p : Port) : (s.endHold p).hold p = none := by
  rw [State.endHold_frame]
  exact PerPort.get_set_self _ _ _

end Rests

/-! ### VIEW (R19, R54 to R56) -/

section Views
variable {X : Port → SlotIx → Prop} {s : State} {k : SlotIx} {p : Port}

theorem State.holding_withView (s : State) (p q : Port) (k j : SlotIx) :
    (s.withView p k).holding q j = if q = p then k == j else s.holding q j := by
  unfold State.holding
  have hold : (s.withView p k).hold q = if q = p then (s.withView p k).holds.get p else s.hold q := by
    by_cases e : q = p
    · rw [if_pos e, e]
      rfl
    · rw [if_neg e]
      exact PerPort.get_set_ne _ e _
  rw [hold]
  by_cases e : q = p
  · simp [e, State.withView]
  · simp [e]

theorem State.slot_withView_ne {j : SlotIx} (hj : j ≠ k) : (s.withView p k).slot j = s.slot j := Table.get_set_ne _ hj _

theorem State.slot_withView_self (s : State) (p : Port) (k : SlotIx) :
    (s.withView p k).slot k =
      { s.slot k with
        unread := (s.slot k).unread.erase p, missed := (s.slot k).missed.erase p
        parked := (s.due.find? fun o => o.slot == k).or (s.slot k).parked } := Table.get_set_self s.slots k _

/-- A view changes of a slot record the sets that the port leaves and the pending value. -/
theorem State.slot_withView (s : State) (p : Port) (k j : SlotIx) :
    ((s.withView p k).slot j).state = (s.slot j).state ∧ ((s.withView p k).slot j).value = (s.slot j).value ∧
      ((s.withView p k).slot j).config = (s.slot j).config := by
  by_cases e : j = k
  · subst e
    rw [State.slot_withView_self]
    exact ⟨rfl, rfl, rfl⟩
  · rw [State.slot_withView_ne e]
    exact ⟨rfl, rfl, rfl⟩

theorem State.withView_moves (s : State) (p : Port) (k : SlotIx) : s.Moves (s.withView p k) := fun j hj => by
  obtain ⟨state, -, config⟩ := s.slot_withView p k j
  rw [state] at hj
  exact ⟨hj, by rw [config]⟩

/-- An answered command waits for nothing. -/
theorem State.phaseOf_post_self (s : State) (p : Port) (r : Result) : (s.post p r).phaseOf p = none := by
  rw [State.phaseOf, State.post, State.port_modPort_self]
  split
  · rfl
  · next h => simpa using h

/-- The view of a slot in use, with no landing in progress on it, is captured for a port that held nothing and whose VIEW is
answered. -/
theorem State.Sound.withView (h : s.Sound) (hp : s.hold p = none) (hl : s.landingMark k = false)
    (hs : (s.slot k).state ≠ .unused) (hx : s.exchange ≠ .restarting) : ((s.withView p k).post p .done).Sound := by
  have free := State.hold_eq_none_iff.mp hp
  have unheld (j : SlotIx) : (s.withView p k).Unheld j ↔ s.Unheld j ∧ j ≠ k := by
    constructor
    · refine fun hu => ⟨fun q => ?_, ?_⟩
      · by_cases e : q = p
        · rw [e, free j]
        · have := hu q
          rwa [State.holding_withView, if_neg e] at this
      · rintro rfl
        have := hu p
        simp [State.holding_withView] at this
    · rintro ⟨hu, hne⟩ q
      rw [State.holding_withView]
      split
      · simpa using Ne.symm hne
      · exact hu q
  obtain ⟨entries, due, dueOnce, parked, ripe, ripeOnce, held, waits, flying⟩ := h.shelved
  have waits' (q : Port) (j : SlotIx) (hw : ((s.withView p k).post p .done).phaseOf q = some (.behindLanding j)) :
      (s.withView p k).holding q j = false ∧ (s.slot j).state ≠ .unused := by
    have ne : q ≠ p := by
      rintro rfl
      rw [State.phaseOf_post_self] at hw
      cases hw
    rw [State.holding_withView, if_neg ne]
    exact waits q j ((s.withView p k).alike_post p .done |>.waits q j hw)
  have sublist : ((s.withView p k).due.map Offer.slot).Sublist (s.due.map Offer.slot) := List.filter_sublist.map _
  have viewed : ((s.withView p k).post p .done).Shelved none := by
    refine ⟨fun o ho => ?_, fun j hj => ?_, dueOnce.sublist sublist, fun j o ho => ?_, fun j => ?_, ripeOnce.filter _,
      fun q j hq => ?_, fun q j hw => ?_, fun l hfl => (unheld _).mpr ⟨flying l hfl, fun e => ?_⟩⟩
    · exact ((State.slot_withView s p k _).1).symm ▸ entries o ho
    · have ne : j ≠ k := by
        obtain ⟨o, ho, rfl⟩ := List.mem_map.mp hj
        simpa using (List.mem_filter.mp ho).2
      obtain ⟨taking, hu, unparked⟩ := due j (sublist.subset hj)
      refine ⟨(State.slot_withView s p k j).1.symm ▸ taking, (unheld j).mpr ⟨hu, ne⟩, ?_⟩
      exact (congrArg Slot.parked (State.slot_withView_ne ne)).trans unparked
    · replace ho : ((s.withView p k).slot j).parked = some o := ho
      show o.slot = j ∧ ((s.withView p k).slot j).state.taking = true
      rw [(s.slot_withView p k _).1]
      by_cases e : j = k
      · subst e
        rw [State.slot_withView_self] at ho
        rcases Option.or_eq_some_iff.mp ho with found | ⟨-, own⟩
        · have slot : o.slot = j := by simpa using List.find?_some found
          exact ⟨slot, (due j (List.mem_map.mpr ⟨o, List.mem_of_find?_eq_some found, slot⟩)).1⟩
        · exact parked j o own
      · rw [State.slot_withView_ne e] at ho
        exact parked j o ho
    · show j ∈ s.ripe.filter (fun i => i != k) ↔
        (s.withView p k).Unheld j ∧ ((s.withView p k).slot j).parked.isSome = true ∧ none ≠ some j
      rw [List.mem_filter, ripe j, unheld j, bne_iff_ne]
      by_cases e : j = k
      · simp [e]
      · rw [State.slot_withView_ne e]
        simp [e]
    · replace hq : (s.withView p k).holding q j = true := hq
      show ((s.withView p k).slot j).state ≠ .unused
      rw [(s.slot_withView p k _).1]
      rw [State.holding_withView] at hq
      split at hq
      · rwa [← eq_of_beq hq]
      · exact held q j hq
    · show (s.withView p k).holding q j = false ∧ ((s.withView p k).slot j).state ≠ .unused
      rw [(s.slot_withView p k _).1]
      exact waits' q j hw
    · have mark : s.landingMark k = true := by
        have flight : s.flight = some l := hfl
        simp [State.landingMark, flight, e]
      rw [hl] at mark
      cases mark
  obtain ⟨flies, tasked, freezing, -, ripeIn, dueIn⟩ := h.modes
  refine ⟨⟨flies, tasked, freezing, fun hr => absurd hr hx, fun hr => ripeIn fun e => hr ?_, fun hd => dueIn fun e => hd ?_⟩, viewed⟩
  · exact List.filter_eq_nil_iff.mpr (by rw [e]; nofun)
  · exact List.filter_eq_nil_iff.mpr (by rw [e]; nofun)

/-- The end of the port's old hold, and the capture of its new view. -/
theorem State.grantView_eq (s : State) (p : Port) (k : SlotIx) :
    s.grantView p k = (((s.endHold p).withView p k).post p .done).offerAct .view false k (.port p) := by
  have unheld : { s.endHold p with holds := (s.endHold p).holds.set p none } = s.endHold p := by
    have same : (s.endHold p).holds.set p none = (s.endHold p).holds := by
      rw [← s.hold_endHold p]
      exact PerPort.set_get_self _ _
    rw [same]
  have captured := capture_reclaimDue_unripen (s.endHold p) p k
  rw [unheld] at captured
  rw [State.grantView, captured]

/-- A grant of a VIEW of a slot in use that the port does not hold, with no landing in progress on it. -/
theorem State.grantView_keeps (hX : X p k → s.holding p k = true) (hx : s.exchange ≠ .restarting)
    (h : s.Sound → s.holding p k = false ∧ s.landingMark k = false ∧ (s.slot k).state ≠ .unused) :
    s.Keeps X (s.grantView p k) := by
  rw [State.grantView_eq]
  refine .trans (t := ((s.endHold p).withView p k).post p .done) ?_ (State.offerAct_keeps _ _ _ _ _)
  have ended : s.Keeps X (s.endHold p) := State.endHold_keeps s p
  refine .of_sound (fun hi => ((s.endHold p).withView_moves p k).ids (ended.ids hi)) (fun hr => ended.runs hr) fun g => ?_
  obtain ⟨free, mark, used⟩ := h g
  obtain ⟨state, marked⟩ := g.rests_endHold (p := p) free
  refine ⟨(ended.sound g).withView (s.hold_endHold p) (marked.trans mark) (state ▸ used) (mt ended.runs hx),
    (ended.shows g).trans fun q j hj hq => ?_⟩
  replace hq : ((s.endHold p).withView p k).holding q j = true := hq
  rw [State.holding_withView] at hq
  refine ⟨?_, ((s.endHold p).slot_withView p k j).2.1⟩
  split at hq
  · next e =>
    rw [← eq_of_beq hq, e] at hj
    cases free.symm.trans (hX hj)
  · exact hq

/-- A VIEW of the slot that the port holds changes nothing that the laws read. -/
theorem State.alike_capture (hh : s.holding p k = true) : s.Alike (s.capture p k) := by
  have seen : (s.setHold p (some (s.newHold p k))).Alike (s.capture p k) := .modSlot rfl
  obtain ⟨g, hg, slot⟩ := (s.holding_iff p k).mp hh
  refine .trans (t := s.setHold p (some (s.newHold p k))) ⟨fun _ => rfl, fun q j => ?_, rfl, rfl, rfl, fun _ _ => id⟩ seen
  unfold State.holding
  rw [State.hold_setHold]
  by_cases e : q = p
  · simp [e, hg, slot, State.newHold]
  · simp [e]

end Views
end Sys2Proof.Machine
end

section
namespace Sys2Proof.Machine
open Sys2Proof Sys2Proof.Publication

/-! ### Blocks that move nothing that the laws of identifiers and holds read

What is left are the lists of values, the exchange state, the holds, and the records that are configured, retired or restarted. -/

namespace State.Alike
variable {s t u : State}

theorem ite {c : Prop} [Decidable c] (ht : c → Alike s t) (he : ¬c → Alike s u) : Alike s (if c then t else u) := by
  split
  · next hc => exact ht hc
  · next hc => exact he hc

theorem report (s : State) (p : Port) (k : ReportKind) : Alike s (s.report p k) := .quiet rfl rfl
theorem modHealth (s : State) (p : Port) (f : Health → Health) : Alike s (s.modHealth p f) := .quiet rfl rfl
theorem modNotes (s : State) (p : Port) (f : NoteUnit → NoteUnit) : Alike s (s.modNotes p f) := .quiet rfl rfl
theorem freeToken (s : State) (p : Port) : Alike s (s.freeToken p) := .ite (fun _ => .quiet rfl rfl) fun _ => .refl s

theorem refuse (s : State) (p : Port) (r : Result) : Alike s (s.refuse p r) := (s.alike_post p r).trans (.report _ p _)

/-- A Port Unit changes, but for its command. -/
theorem modUnit (s : State) (p : Port) {f : PortUnit → PortUnit} (hf : ∀ u, (f u).unit.busy = u.unit.busy) : Alike s (s.modPort p f) :=
  .modPort fun _ hc _ _ => (hf _).symm.trans hc

theorem post (h : Alike s t) (p : Port) (r : Result) : Alike s (t.post p r) := h.trans (t.alike_post p r)

/-! The parts of a landing, requests and the time base. -/

theorem modFlight {f : Landing → Landing} (hf : ∀ l, (f l).offer = l.offer) : Alike s (s.modFlight f) := by
  refine ⟨fun _ => rfl, fun _ _ => rfl, rfl, rfl, ?_, fun _ _ => id⟩
  rw [State.modFlight, Option.map_map]
  exact congrArg (fun g => s.flight.map g) (funext hf)

theorem serveLanding (s : State) : Alike s (serveLanding s) := by
  unfold Machine.serveLanding
  split
  · exact .refl s
  · split
    · exact .refl s
    · exact (State.Alike.modSlot rfl).trans (.modFlight fun _ => rfl)

theorem notifyLanding (s : State) : Alike s (notifyLanding s) := by
  unfold Machine.notifyLanding
  split
  · exact .refl s
  · split
    · exact .refl s
    · exact .ite (fun _ => .refl s) fun _ =>
        ((State.Alike.modSlot rfl).trans (State.alike_appendEach _ _ _)).trans (.modFlight fun _ => rfl)

theorem timeLanding (s : State) : Alike s (timeLanding s) := by
  unfold Machine.timeLanding
  split
  · exact .refl s
  · exact .ite (fun _ => .refl s) fun _ => (State.Alike.modSlot rfl).trans (.modFlight fun _ => rfl)

theorem expireDeadline (s : State) (k : SlotIx) : Alike s (expireDeadline k s) := by
  have out := s.alike_timeOutRequesters k
  unfold Machine.expireDeadline
  split
  · exact .refl s
  · exact .ite (fun _ => .ite (fun _ => out.trans (.report _ _ _)) fun _ => out) fun _ => .refl s

theorem expireFreshness (s : State) (k : SlotIx) : Alike s (expireFreshness k s) := by
  unfold Machine.expireFreshness
  split
  · exact .refl s
  · exact .ite (fun _ => (State.Alike.modSlot rfl).trans (State.alike_tell _ _ _ k)) fun _ => .refl s

theorem tick (s : State) : Alike s (tick s) :=
  .ite (fun _ => .ite (fun _ => .ite (fun _ => .refl s) fun _ => .quiet rfl rfl) fun _ => .quiet rfl rfl) fun _ => .refl s

theorem moveTimers (s : State) (d : Time) : Alike s (s.moveTimers d) := by
  refine ⟨fun k => ?_, fun p k => ?_, rfl, rfl, rfl, fun _ _ => id⟩
  · have slot : (s.moveTimers d).slot k =
        { s.slot k with deadline := (s.slot k).deadline.map (· + d), freshness := (s.slot k).freshness.map (· + d) } :=
      s.slot_mapSlots k _
    rw [slot]
    rfl
  · have hold : (s.moveTimers d).hold p = (s.hold p).map fun h => { h with expiry := h.expiry + d } := PerPort.get_ofFn _ p
    unfold State.holding
    rw [hold]
    cases s.hold p <;> rfl

theorem takeSetTime (s : State) (p : Port) : Alike s (takeSetTime p s) :=
  post (t := { s.moveTimers ((s.port p).arg1 ++ (s.port p).arg0 - s.time) with
    time := (s.port p).arg1 ++ (s.port p).arg0, prescaler := 0#4 }) ((moveTimers s _).trans (.quiet rfl rfl)) p .done

/-! Notes. -/

theorem flushNotes (s : State) (p : Port) : Alike s (s.flushNotes p) := (modNotes s p _).trans (.mapSlots fun _ => rfl)

theorem resetNotes (s : State) (p : Port) : Alike s (s.resetNotes p) := (flushNotes s p).trans (modNotes _ p _)

/-! The Health Unit. -/

theorem dropRequester (s : State) (p : Port) : Alike s (s.mapSlots (Slot.dropRequester p)) :=
  .mapSlots fun r => by
    unfold Slot.dropRequester
    split <;> rfl

theorem detachRequests (s : State) (p : Port) : Alike s (s.detachRequests p) := by
  have left : Alike s { s.mapSlots (Slot.dropRequester p) with lostOwners := s.lostOwners.insert p } :=
    (dropRequester s p).trans (.quiet rfl rfl)
  exact (left.trans (State.alike_shuffle _ _)).trans (State.alike_foldl (fun u k => u.alike_timeOutRequesters k) _ _)

theorem detachNotes (s : State) (p : Port) : Alike s (s.detachNotes p) := (flushNotes s p).trans (modNotes _ p _)

theorem orphan (s : State) (k : SlotIx) : Alike s (s.orphan k) := (State.Alike.modSlot rfl).trans (State.alike_tell _ _ _ k)

theorem expelOutside (s : State) (p : Port) : Alike s (s.expelOutside p) := .ite (fun _ => modHealth s p _) fun _ => .refl s

theorem finishExpels (s : State) (p : Port) : Alike s (s.finishExpels p) := by
  refine State.alike_foldl (fun u q => ?_) Port.all s
  split
  · exact .ite (fun _ => .trans (.ite (fun _ => .refl u) fun _ => expelOutside u p) (State.alike_post _ q .done)) fun _ => .refl u
  all_goals exact .refl u

theorem completeExpels (s : State) : Alike s s.completeExpels := by
  refine State.alike_foldl (fun u q => ?_) Port.all s
  split
  · exact u.alike_post q .done
  all_goals exact .refl u

theorem detachOrphan (s : State) (p : Port) : Alike s (s.detachOrphan p) :=
  (((s.alike_shuffle _).trans (State.alike_foldl orphan _ _)).trans (modHealth _ p _)).trans (finishExpels _ p)

theorem takeExpel (s : State) (p : Port) : Alike s (takeExpel p s) := by
  unfold Machine.takeExpel
  split
  · exact refuse s p _
  · next q _ =>
    have begins : Alike s (((s.setPhase p (.expelling q true)).markDetaching q .expelled).waitToDetach [q]) :=
      ((s.alike_setPhase p (by simp)).trans (State.alike_markDetaching _ q .expelled)).trans (.quiet rfl rfl)
    have ends : Alike s ((s.expelOutside q).post p .done) := (expelOutside s q).trans (State.alike_post _ p .done)
    refine .ite (fun _ => refuse s p _) fun _ => .ite (fun _ => s.alike_setPhase p (by simp)) fun _ => ?_
    split
    · exact begins
    · exact begins
    · exact ends
    · exact ends

theorem takeRejoinPolicy (s : State) (p : Port) : Alike s (takeRejoinPolicy p s) := by
  unfold Machine.takeRejoinPolicy
  dsimp only
  split
  · exact refuse s p _
  · exact .ite (fun _ => refuse s p _) fun _ => (modHealth s _ _).trans (State.alike_post _ p .done)

theorem takeRejoin (s : State) (p : Port) : Alike s (takeRejoin p s) := by
  unfold Machine.takeRejoin
  split
  · exact (modHealth s p _).trans (State.alike_post _ p .done)
  all_goals exact refuse s p _

theorem reportActive (s : State) (p : Port) : Alike s (s.reportActive p) := by
  have cleared : Alike s ((s.modNotes p fun m => { m with delivery := .delivering }).mapSlots fun r =>
      if r.config.owner = p then { r with orphaned := false } else r) :=
    (modNotes s p _).trans (.mapSlots fun r => by split <;> rfl)
  exact cleared.trans (.quiet rfl rfl)

theorem endQuiet (s : State) (p : Port) : Alike s (endQuiet p s) := by
  unfold Machine.endQuiet
  dsimp only
  split
  · exact .refl s
  · exact .ite (fun _ => .ite (fun _ => (modHealth s p _).trans (reportActive _ p)) fun _ => modHealth s p _) fun _ => .refl s

/-! The commands that set a record of the Control Unit, the View Unit or the Watch Unit, or copy one. -/

theorem takeClaim (s : State) (p : Port) : Alike s (takeClaim p s) := by
  have claimed : Alike s ({ s with token := some p }.post p .done) :=
    .trans (t := { s with token := some p }) (.quiet rfl rfl) (State.alike_post _ p .done)
  unfold Machine.takeClaim
  refine .ite (fun _ => refuse s p _) fun _ => ?_
  split
  · exact .ite (fun _ => s.alike_post p .done) fun _ => refuse s p _
  · exact claimed

theorem takeYield (s : State) (p : Port) : Alike s (takeYield p s) :=
  .ite (fun _ => .trans (t := { s with token := none }) (.quiet rfl rfl) (State.alike_post _ p .done)) fun _ => refuse s p _

theorem takeInspect (s : State) (p : Port) : Alike s (takeInspect p s) := by
  unfold Machine.takeInspect
  refine .ite (fun _ => refuse s p _) fun _ => ?_
  split
  · exact refuse s p _
  · next i _ =>
    split
    · exact refuse s p _
    · next o _ => exact (modUnit s p (f := fun u => { u with maintenance := .inspect (s.inspection i o) }) fun _ => rfl).post p .done

theorem takeHoldTimeout (s : State) (p : Port) : Alike s (takeHoldTimeout p s) :=
  .ite (fun _ => refuse s p _) fun _ =>
    .trans (t := { s with holdTimeout := (s.port p).arg0.setWidth 8 }) (.quiet rfl rfl) (State.alike_post _ p .done)

theorem takeArm (s : State) (p : Port) : Alike s (takeArm p s) := by
  unfold Machine.takeArm
  dsimp only
  split
  · exact refuse s p _
  · next w _ => exact (s.alike_watch w).trans (State.alike_post _ p .done)

theorem takeDisarm (s : State) (p : Port) : Alike s (takeDisarm p s) := (s.alike_watch _).trans (State.alike_post _ p .done)

theorem takeReadCapture (s : State) (p : Port) : Alike s (takeReadCapture p s) := by
  unfold Machine.takeReadCapture
  split
  · exact refuse s p _
  · next i _ => exact (modUnit s p (f := fun u => { u with maintenance := .capture (s.watch.reading i) }) fun _ => rfl).post p .done

/-! The command unit and the bus cycles. -/

theorem acceptWrite (s : State) (p : Port) (c : Command) (n : Byte) : Alike s (s.acceptWrite p c n) :=
  .modPort fun _ hc _ hk => by
    cases hc
    cases hk

theorem overrun (s : State) (p : Port) : Alike s (s.overrun p) :=
  .trans (t := s.modPort p fun u => { u with unit := { u.unit with overrun := true } }) (modUnit s p fun _ => rfl) (.report _ p _)

theorem writeUndefined (s : State) (p : Port) : Alike s (s.writeUndefined p) := by
  have answered : Alike s (s.modPort p fun u => { u with unit := u.unit.posted .badCommand }) :=
    .modPort fun _ hc _ _ => by cases hc
  exact .ite (fun _ => overrun s p) fun _ => answered.trans (.report _ p _)

theorem writeStored (s : State) (p : Port) (off : BitVec 6) (w : Word) : Alike s (s.writeStored p off w) := by
  have unit {f : PortUnit → PortUnit} (hf : ∀ u, (f u).unit.busy = u.unit.busy) : Alike s (s.modPort p f) := modUnit s p hf
  unfold State.writeStored
  exact .ite (fun _ => unit fun _ => rfl) fun _ => .ite (fun _ => unit fun _ => rfl) fun _ => .ite (fun _ => unit fun _ => rfl) fun _ =>
    .ite (fun _ => unit fun _ => rfl) fun _ => .ite (fun _ => unit fun _ => rfl) fun _ => .ite (fun _ => unit fun _ => rfl) fun _ =>
    .ite (fun _ => modNotes s p _) fun _ => .refl s

theorem finishResetPort (s : State) (p : Port) : Alike s (finishResetPort p s) :=
  .ite (fun _ => s.alike_post p .done) fun _ => .refl s

end State.Alike
end Sys2Proof.Machine
end

section
namespace Sys2Proof.Machine
open Sys2Proof Sys2Proof.Publication Sys2Proof.Views

/-! ### The commands on values, and the end of a landing (R28 to R30, R39, R54 to R62, R91 to R94) -/

section Values
variable {X : Port → SlotIx → Prop} {s t : State} {p : Port} {k : SlotIx} {n : Byte} {o : Offer}

theorem State.taking_of_checkSlot (h : s.checkSlot n = .ok k) : (s.slot k).state.taking = true := by
  unfold State.checkSlot at h
  split at h
  · cases h
  · split at h
    · cases h
    · cases h
    · next hs =>
      cases h
      rw [hs]
      rfl
    · next hs =>
      cases h
      rw [hs]
      rfl

theorem SlotState.ne_unused_of_taking {x : SlotState} (h : x.taking = true) : x ≠ .unused := by
  rintro rfl
  cases h

theorem State.checkSlot_of_checkPublish (h : s.checkPublish p n = .ok k) : s.checkSlot n = .ok k := by
  unfold State.checkPublish at h
  split at h
  · cases h
  · next hs =>
    rw [hs]
    dsimp only at h
    split_ifs at h
    exact h

theorem State.checkSlot_of_checkRequest (h : s.checkRequest p n = .ok k) : s.checkSlot n = .ok k := by
  unfold State.checkRequest at h
  split_ifs at h
  split at h
  · cases h
  · next hs =>
    rw [hs]
    dsimp only at h
    split_ifs at h
    exact h

/-- An entry for a slot that takes values joins the Publication Queue. -/
theorem State.appendEntry_keeps (hk : (s.slot o.slot).state.taking = true) : s.Keeps X (s.appendEntry o) := by
  refine .of_sound (State.Moves.of_slots rfl).ids id fun h => ⟨⟨h.modes.lessen rfl id id id fun _ => id, ?_⟩, .of_slots rfl rfl⟩
  refine h.shelved.requeue fun x hx => ?_
  rcases List.mem_append.mp hx with hx | hx
  · exact h.shelved.entries x hx
  · rw [List.mem_singleton.mp hx]
    exact hk

theorem takePublish_keeps (s : State) (p : Port) (n : Byte) : s.Keeps X (takePublish p n s) := by
  unfold takePublish
  split
  · exact (State.Alike.refuse s p _).keeps
  · next k hc =>
    have taking := State.taking_of_checkSlot (State.checkSlot_of_checkPublish hc)
    exact (State.appendEntry_keeps taking).trans ((State.Alike.report _ p _).trans (State.alike_post _ p .done)).keeps

theorem State.beginRound_keeps (hk : (s.slot k).state.taking = true) : s.Keeps X (s.beginRound p k) := by
  have joined : s.Alike (s.modSlot k fun r =>
      { Slot.addRequester p r with deadline := some (s.time + milliseconds (s.slot k).config.requestDeadline) }) := .modSlot rfl
  unfold State.beginRound
  dsimp only
  split
  · exact (joined.trans (State.alike_appendNote _ _ _)).keeps
  · exact joined.keeps.trans (State.appendEntry_keeps ((joined.state k).symm ▸ hk))

theorem takeRequest_keeps (s : State) (p : Port) (n : Byte) : s.Keeps X (takeRequest p n s) := by
  unfold takeRequest
  split
  · exact (State.Alike.refuse s p _).keeps
  · next k hc =>
    have taking := State.taking_of_checkSlot (State.checkSlot_of_checkRequest hc)
    have answered (t : State) : t.Keeps X ((t.post p .done)) := (t.alike_post p .done).keeps
    refine .ite (fun _ => ?_) fun _ => ?_
    · exact ((State.beginRound_keeps taking).trans (answered _)).trans (State.offerAct_keeps _ _ _ _ _)
    · have joined : s.Alike (s.modSlot k (Slot.addRequester p)) := .modSlot rfl
      exact (joined.keeps.trans (answered _)).trans (State.offerAct_keeps _ _ _ _ _)

/-- A command of the port waits behind a landing on a slot in use that the port does not hold. -/
theorem State.waitBehind_keeps (hh : s.holding p k = false) (hs : (s.slot k).state ≠ .unused) :
    s.Keeps X (s.setPhase p (.behindLanding k)) := by
  refine .of_sound (State.Moves.of_slots rfl).ids id fun h => ⟨⟨h.modes.lessen rfl id id id fun _ => id, ?_⟩, .of_slots rfl rfl⟩
  obtain ⟨entries, due, dueOnce, parked, ripe, ripeOnce, held, waits, flying⟩ := h.shelved
  refine ⟨entries, due, dueOnce, parked, ripe, ripeOnce, held, fun q j hw => ?_, flying⟩
  obtain ⟨c, hc, phase⟩ := Option.map_eq_some_iff.mp hw
  rw [State.setPhase, State.port_modPort] at hc
  split at hc
  · next e =>
    subst e
    obtain ⟨d, -, rfl⟩ := Option.map_eq_some_iff.mp hc
    cases phase
    exact ⟨hh, hs⟩
  · exact waits q j (Option.map_eq_some_iff.mpr ⟨c, hc, phase⟩)

theorem takeView_keeps (hX : ∀ q j, X q j → s.holding q j = true) (hr : s.exchange ≠ .restarting) :
    s.Keeps X (takeView p n s) := by
  unfold takeView
  split
  · exact (State.Alike.refuse s p _).keeps
  · next k hc =>
    have used := SlotState.ne_unused_of_taking (State.taking_of_checkSlot hc)
    refine .ite (fun hh => ?_) fun hh => ?_
    · exact ((State.alike_capture hh).post p .done).keeps.trans (State.offerAct_keeps _ _ _ _ _)
    · have free : s.holding p k = false := Bool.eq_false_of_not_eq_true hh
      exact .ite (fun _ => State.waitBehind_keeps free used) fun hl =>
        State.grantView_keeps (hX p k) hr fun _ => ⟨free, Bool.eq_false_of_not_eq_true hl, used⟩

theorem State.grantWaiting_keeps (hX : ∀ q j, X q j → s.holding q j = true) (p : Port) : s.Keeps X (s.grantWaiting p) := by
  unfold State.grantWaiting
  split
  · next k hw =>
    refine .ite (fun _ => .refl s) fun hn => ?_
    obtain ⟨mark, runs⟩ : s.landingMark k = false ∧ s.exchange ≠ .restarting := by simpa using hn
    refine State.grantView_keeps (hX p k) runs fun h => ?_
    obtain ⟨free, used⟩ := h.shelved.waits p k hw
    exact ⟨free, mark, used⟩
  · exact .ite (fun _ => .refl s) fun _ => (State.Alike.refuse s p _).keeps
  all_goals exact .refl s

theorem takeRelease_keeps (s : State) (p : Port) : s.Keeps X (takeRelease p s) := by
  unfold takeRelease
  split
  · exact (State.Alike.refuse s p _).keeps
  · exact (State.endHold_keeps s p).trans (State.alike_post _ p .done).keeps

theorem expireHold_keeps (s : State) (p : Port) : s.Keeps X (expireHold p s) := by
  unfold expireHold
  split
  · exact .refl s
  · refine .ite (fun _ => (State.endHold_keeps s p).trans ?_) fun _ => .refl s
    exact ((State.alike_appendNote _ p _).trans (State.Alike.report _ p _)).keeps

theorem takeNote_keeps (s : State) (p : Port) : s.Keeps X (takeNote p s) := by
  have popped (u : State) : u.Keeps X (u.popNote p) := (u.alike_popNote p).keeps
  have ended (u : State) : u.Keeps X (u.endHold p) := u.endHold_keeps p
  have picked : s.Keeps X (s.pick 2).2 := (s.alike_pick 2).keeps
  unfold takeNote
  refine .ite (fun _ => .ite (fun _ => ?_) fun _ => ?_) fun _ => (popped s).trans (ended _)
  · exact (picked.trans (popped _)).trans (ended _)
  · exact (picked.trans (ended _)).trans (popped _)

end Values

/-! ### The end of a landing (R16, R39, R56) -/

section LandingEnds
variable {X : Port → SlotIx → Prop} {s t : State} {k : SlotIx}

/-- The holds are those of `s`, and no slot changes its state or its landing-in-progress mark. -/
def State.Stays (s t : State) : Prop := (∀ p k, t.holding p k = s.holding p k) ∧ ∀ k, s.Rests k t

theorem State.Stays.refl (s : State) : s.Stays s := ⟨fun _ _ => rfl, fun k => .refl k s⟩

theorem State.Alike.stays (h : s.Alike t) : s.Stays t := by
  refine ⟨h.holds, fun k => ⟨h.state k, ?_⟩⟩
  have mark (u : State) : u.landingMark k = (u.flight.map Landing.offer).any fun o => o.slot == k := by
    unfold State.landingMark
    cases u.flight <;> rfl
  rw [mark, mark, h.flight]

theorem State.stays_becomeFrozen (s : State) : s.Stays s.becomeFrozen := ⟨s.holding_becomeFrozen, fun _ => s.rests_becomeFrozen⟩

theorem State.stays_drainNext (s : State) : s.Stays s.drainNext := by
  unfold State.drainNext
  split
  · exact s.stays_becomeFrozen
  · split
    · exact .refl s
    · exact (State.alike_completeAll { s with exchange := .running, task := none } .resume).stays

theorem State.stays_landingEnded (s : State) : s.Stays s.landingEnded := by
  unfold State.landingEnded
  split
  · exact .refl s
  · split
    · exact s.stays_becomeFrozen
    · split
      · exact s.stays_drainNext
      · exact s.stays_becomeFrozen
      · exact s.stays_becomeFrozen
    all_goals exact .refl s

theorem State.Stays.retirementDue (h : s.Stays t) (hd : s.retirementDue k = true) : t.retirementDue k = true := by
  obtain ⟨holds, rests⟩ := h
  obtain ⟨retiring, unheld, mark⟩ := State.retirementDue_iff.mp hd
  exact State.retirementDue_iff.mpr ⟨(rests k).1.trans retiring, fun p => (holds p k).trans (unheld p), (rests k).2.trans mark⟩

theorem State.landingOver_keeps (hX : ∀ q j, X q j → s.holding q j = true) (k : SlotIx) : s.Keeps X (s.landingOver k) := by
  by_cases hd : s.retirementDue k = true
  · rcases s.landingOver_cases k with e | ⟨n, hn⟩
    · rw [e]
      exact s.landingEnded_keeps
    · have counted : s.Alike { s with freeCount := n } := .quiet rfl rfl
      refine counted.keeps.trans ?_
      have hX' : ∀ q j, X q j → State.holding { s with freeCount := n } q j = true := hX
      have hd' : State.retirementDue { s with freeCount := n } k = true := hd
      dsimp only at hn
      generalize ({ s with freeCount := n } : State) = t at hn hX' hd' ⊢
      have ended := t.landingEnded_keeps (X := X)
      have stays := t.stays_landingEnded
      rcases hn with e | ⟨p, e | e⟩ <;> rw [e]
      · exact ended.trans (State.completeRetirement_keeps (stays.retirementDue hd'))
      · exact ended.trans (State.grantWaiting_keeps (fun q j hq => (stays.1 q j).trans (hX' q j hq)) p)
      · exact (State.grantWaiting_keeps hX' p).trans (State.landingEnded_keeps _)
  · rw [State.landingOver, if_neg hd]
    exact s.landingEnded_keeps

/-- The landing in flight, if any, is over. -/
theorem State.landed_keeps (s : State) : s.Keeps X { s with flight := none } :=
  .of_sound (State.Moves.of_slots rfl).ids id fun h =>
    have landed : ({ s with flight := none } : State).flight.isSome = true → s.flight.isSome = true := fun hf =>
      absurd hf Bool.false_ne_true
    ⟨⟨h.modes.lessen rfl landed id id fun _ => id, h.shelved.fly fun l hl => (Option.some_ne_none l hl.symm).elim⟩, .of_slots rfl rfl⟩

theorem endLanding_keeps (hX : ∀ q j, X q j → s.holding q j = true) : s.Keeps X (endLanding s) := by
  unfold endLanding
  split
  · exact .refl s
  · refine .ite (fun _ => ?_) fun _ => .refl s
    exact s.landed_keeps.trans (State.landingOver_keeps (s := { s with flight := none }) hX _)

end LandingEnds
end Sys2Proof.Machine
end

section
namespace Sys2Proof.Machine
open Sys2Proof Sys2Proof.Publication Sys2Proof.Views Sys2Proof.FreezeAndWatch

/-! ### What steps 1 to 5 of a retirement leave (R14) -/

section RetireSteps
variable {s : State} {k : SlotIx}

/-- The value of slot `k` that waits for its holders to go: the due one, or else the pending one. -/
def State.waiter (s : State) (k : SlotIx) : Option Offer := (s.due.find? fun o => o.slot == k).or (s.slot k).parked

/-- `s` with no value of slot `k` pending, due or ripe. -/
def State.unwaited (s : State) (k : SlotIx) : State :=
  { s.setParked k none with
    due := s.due.filter fun o => o.slot != k
    ripe := if (s.waiter k).isSome then s.ripe.filter fun j => j != k else s.ripe }

theorem State.waiter_eq_none : s.waiter k = none ↔ (∀ o ∈ s.due, o.slot ≠ k) ∧ (s.slot k).parked = none := by
  simp [State.waiter, List.find?_eq_none]

theorem State.filter_due_of_none (h : ∀ o ∈ s.due, o.slot ≠ k) : (s.due.filter fun o => o.slot != k) = s.due :=
  List.filter_eq_self.mpr fun o ho => bne_iff_ne.mpr (h o ho)

theorem State.setParked_of_none (h : (s.slot k).parked = none) : s.setParked k none = s := by
  have slots : (s.setParked k none).slots = s.slots := Table.ext_get fun j => by
    show (s.setParked k none).slot j = s.slot j
    rw [State.setParked, State.slot_modSlot]
    split
    · next e => rw [e, ← h]
    · rfl
  exact congrArg (fun x => { s with slots := x }) slots

theorem State.setParked_setParked (o : Option Offer) : (s.setParked k o).setParked k none = s.setParked k none :=
  modSlot_modSlot (s := s) (k := k) (fun r => { r with parked := o }) fun r => { r with parked := none }

theorem State.unwaited_of_none (h : s.waiter k = none) : s.unwaited k = s := by
  obtain ⟨due, parked⟩ := State.waiter_eq_none.mp h
  rw [State.unwaited, h, State.filter_due_of_none due, State.setParked_of_none parked]
  rfl

/-- A due value that is reclaimed to be discarded, and a pending one. -/
theorem State.dropParked_of_some {o : Offer} (h : s.waiter k = some o) :
    s.dropParked k = (s.unwaited k).tellDropped o.source k := by
  rw [State.unwaited, h]
  unfold State.dropParked State.reclaimDue
  rcases Option.or_eq_some_iff.mp h with found | ⟨none, parked⟩
  · have own : ((s.setParked k (some o)).slot k).parked = some o :=
      congrArg Slot.parked (State.slot_modSlot_self s k fun r => { r with parked := some o })
    have reclaimed (d : List Offer) : State.slot { s.setParked k (some o) with due := d } k = (s.setParked k (some o)).slot k := rfl
    rw [found]
    simp only [reclaimed, own]
    rw [← State.setParked_setParked (s := s) (some o)]
    rfl
  · rw [none]
    dsimp only
    rw [parked]
    dsimp only
    rw [State.filter_due_of_none (by simpa using none)]
    rfl

theorem State.dropEntries_frame (s : State) (k : SlotIx) :
    s.dropEntries k =
      { s with queue := s.queue.filter fun o => o.slot != k, notes := (s.dropEntries k).notes,
               reports := (s.dropEntries k).reports } := by
  unfold State.dropEntries
  refine foldl_keeps (P := fun u => u = { s with queue := s.queue.filter fun o => o.slot != k, notes := u.notes, reports := u.reports })
    (fun u o hu => ?_) _ _ rfl
  rw [State.tellDropped_frame, hu]

theorem State.dropParked_frame (s : State) (k : SlotIx) :
    s.dropParked k = { s.unwaited k with notes := (s.dropParked k).notes, reports := (s.dropParked k).reports } := by
  cases h : s.waiter k with
  | none =>
    obtain ⟨due, parked⟩ := State.waiter_eq_none.mp h
    rw [Commands.dropParked_of_unwaited due parked, State.unwaited_of_none h]
  | some o => rw [State.dropParked_of_some h, State.tellDropped_frame]

/-- What is left of the record of a slot that is being retired. -/
def Slot.retiredFrom (r : Slot) : Slot := { retiringRecord r with parked := none }

theorem State.slots_retireSteps (s : State) (k : SlotIx) : (s.retireSteps k).slots = s.slots.set k (s.slot k).retiredFrom := by
  let marked := s.modSlot k fun r => { r with state := .retiring }
  let dropped := marked.dropEntries k
  have droppedSlots : dropped.slots = s.slots.set k { s.slot k with state := .retiring } :=
    congrArg State.slots (marked.dropEntries_frame k)
  let emptied := dropped.dropParked k
  have emptiedSlots : emptied.slots = s.slots.set k { s.slot k with state := .retiring, parked := none } := by
    refine (congrArg State.slots (dropped.dropParked_frame k)).trans ?_
    show dropped.slots.set k { dropped.slots.get k with parked := none } = _
    rw [droppedSlots, Table.get_set_self, table_set_set]
  let unasked := emptied.timeOutRequesters k
  have unaskedSlots : unasked.slots = s.slots.set k { s.slot k with
      state := .retiring, parked := none, requesters := PortSet.empty, deadline := none } := by
    refine (congrArg State.slots (emptied.timeOutRequesters_frame k)).trans ?_
    show emptied.slots.set k (Slot.endRound (emptied.slots.get k)) = _
    rw [emptiedSlots, Table.get_set_self, table_set_set]
    rfl
  show unasked.slots.set k { unasked.slots.get k with freshness := none } = _
  rw [unaskedSlots, Table.get_set_self, table_set_set]
  rfl

/-- Steps 1 to 5 change the slot, what waits for it, the Notification Queues and the reports. -/
theorem State.retireSteps_frame (s : State) (k : SlotIx) :
    s.retireSteps k =
      { s with
        queue := s.queue.filter fun o => o.slot != k
        due := s.due.filter fun o => o.slot != k
        ripe := if (s.waiter k).isSome then s.ripe.filter fun j => j != k else s.ripe
        slots := s.slots.set k (s.slot k).retiredFrom
        notes := (s.retireSteps k).notes, reports := (s.retireSteps k).reports } := by
  let marked := s.modSlot k fun r => { r with state := .retiring }
  let dropped := marked.dropEntries k
  let emptied := dropped.dropParked k
  let unasked := emptied.timeOutRequesters k
  let t := s.retireSteps k
  have droppedFrame := marked.dropEntries_frame k
  have waits : dropped.waiter k = s.waiter k := by
    show (dropped.due.find? _).or (dropped.slot k).parked = _
    rw [show dropped = _ from droppedFrame]
    have parked : (marked.slot k).parked = (s.slot k).parked :=
      (congrArg Slot.parked (State.slot_modSlot_self s k fun r => { r with state := .retiring })).trans rfl
    exact congrArg (Option.or _) parked
  rw [← State.slots_retireSteps, ← waits]
  calc t = { emptied with slots := t.slots, notes := t.notes, reports := t.reports } :=
        congrArg (fun u => { u with slots := t.slots }) (emptied.timeOutRequesters_frame k)
    _ = { dropped.unwaited k with slots := t.slots, notes := t.notes, reports := t.reports } :=
        congrArg (fun u => { u with slots := t.slots, notes := t.notes, reports := t.reports }) (dropped.dropParked_frame k)
    _ = _ := congrArg (fun u : State =>
        { u with
          due := u.due.filter fun o => o.slot != k
          ripe := if (dropped.waiter k).isSome then u.ripe.filter fun j => j != k else u.ripe
          slots := t.slots, notes := t.notes, reports := t.reports }) droppedFrame

end RetireSteps

/-! ### The commands of the Slot Table (R10 to R14) -/

section SlotTable
variable {X : Port → SlotIx → Prop} {s : State} {p : Port} {k : SlotIx} {n : Byte} {c : SlotConfig}

theorem State.Sound.unheld_of_unused (h : s.Sound) (hk : (s.slot k).state = .unused) : s.Unheld k := fun p => by
  by_contra hh
  exact h.shelved.held p k (Bool.eq_true_of_not_eq_false hh) hk

theorem State.Shelved.parked_of_not_taking {x : Option SlotIx} (h : s.Shelved x) (hk : (s.slot k).state.taking = false) :
    (s.slot k).parked = none := by
  by_contra hne
  obtain ⟨o, ho⟩ := Option.ne_none_iff_exists'.mp hne
  rw [(h.parked k o ho).2] at hk
  cases hk

theorem State.identifierInUse_iff {i : Ident} : s.identifierInUse k i = true ↔
    ∃ j, j ≠ k ∧ (s.slot j).state ≠ .unused ∧ (s.slot j).config.identifier = i := by
  simp [State.identifierInUse, allSlots, and_assoc]

theorem State.checkConfigure_ok (h : s.checkConfigure p n = .ok k) : (s.slot k).state = .unused ∧
    s.identifierInUse k (configOfArgs (s.port p).arg0 (s.port p).arg1 (s.port p).arg2).identifier = false := by
  unfold State.checkConfigure at h
  split at h
  · cases h
  · dsimp only at h
    split at h
    · cases h
    · cases h
    · cases h
    · next hs =>
      split_ifs at h with hbad hid
      cases h
      exact ⟨hs, Bool.eq_false_of_not_eq_true hid⟩

/-- An UNUSED slot opens under an identifier that no slot in use carries. -/
theorem State.open_ids {b : Bool} (hi : s.identifierInUse k c.identifier = false) (law : s.IdentifierLaw) :
    (s.modSlot k fun _ => Slot.configured c b).IdentifierLaw := by
  have fresh (j : SlotIx) (hj : j ≠ k) (used : (s.slot j).state ≠ .unused) : (s.slot j).config.identifier ≠ c.identifier := fun e =>
    Bool.false_ne_true (hi.symm.trans (State.identifierInUse_iff.mpr ⟨j, hj, used, e⟩))
  intro i j
  rw [State.slot_modSlot, State.slot_modSlot]
  split <;> split
  · next ei ej => exact fun _ _ _ => ei.trans ej.symm
  · next ei ej => exact fun _ used e => absurd e.symm (fresh j ej used)
  · next ei ej => exact fun used _ e => absurd e (fresh i ei used)
  · exact law i j

theorem State.open_keeps {b : Bool} (hs : (s.slot k).state = .unused) (hi : s.identifierInUse k c.identifier = false) :
    s.Keeps X (s.modSlot k fun _ => Slot.configured c b) := by
  refine .of_sound (State.open_ids hi) id fun h => ?_
  have unheld := h.unheld_of_unused hs
  have unparked : (s.slot k).parked = none := h.shelved.parked_of_not_taking (by rw [hs]; rfl)
  refine ⟨⟨h.modes.lessen rfl id id id fun _ => id, h.shelved.setSlot (.inl rfl) (.inl rfl) (fun _ => ⟨rfl, rfl⟩) nofun
    (iff_of_false (fun hk => ?_) fun ⟨_, hp, _⟩ => Bool.false_ne_true hp) nofun⟩, .of_unheld (fun _ _ => id) fun j => ?_⟩
  · have ripe := ((h.shelved.ripe k).mp hk).2.1
    rw [unparked] at ripe
    cases ripe
  · by_cases e : j = k
    · exact .inr (e ▸ unheld)
    · exact .inl (by rw [State.slot_modSlot, if_neg e])

theorem takeConfigure_keeps (s : State) (p : Port) (n : Byte) : s.Keeps X (takeConfigure p n s) := by
  unfold takeConfigure
  split
  · exact (State.Alike.refuse s p _).keeps
  · next k hc =>
    obtain ⟨unused, fresh⟩ := State.checkConfigure_ok hc
    exact ((State.open_keeps unused fresh).trans (State.alike_post _ p .done).keeps).trans (State.offerAct_keeps _ _ _ _ _)

/-- Nothing waits on a slot that takes no values. -/
theorem State.retireSteps_keeps (hk : (s.slot k).state ≠ .unused) : s.Keeps X (s.retireSteps k) := by
  have frame := s.retireSteps_frame k
  generalize s.retireSteps k = t at frame
  let u : State :=
    { s with
      queue := s.queue.filter fun o => o.slot != k
      due := s.due.filter fun o => o.slot != k
      ripe := if (s.waiter k).isSome then s.ripe.filter fun j => j != k else s.ripe
      slots := s.slots.set k (s.slot k).retiredFrom }
  have told : u.Alike t := by
    rw [frame]
    exact .quiet rfl rfl
  refine .trans (t := u) (.of_sound
    (State.Moves.ids (State.Moves.trans (.set (r := (s.slot k).retiredFrom) fun _ => ⟨hk, rfl⟩) (.of_slots rfl)))
    id fun h => ?_) told.keeps
  have ripe : (if (s.waiter k).isSome then s.ripe.filter fun j => j != k else s.ripe) = s.ripe.filter fun j => j != k := by
    split
    · rfl
    · next hn =>
      obtain ⟨-, unparked⟩ := State.waiter_eq_none.mp (Option.not_isSome_iff_eq_none.mp hn)
      refine (List.filter_eq_self.mpr fun j hj => bne_iff_ne.mpr fun e => ?_).symm
      have parked := ((h.shelved.ripe j).mp hj).2.1
      rw [e, unparked] at parked
      cases parked
  have emptied : (State.unripen { s with queue := s.queue.filter fun o => o.slot != k, due := s.due.filter fun o => o.slot != k }
      k).Shelved (some k) :=
    ((h.shelved.requeue (n := s.nextOrder) fun o ho => h.shelved.entries o (List.mem_of_mem_filter ho)).redue
      (List.filter_sublist.map _)).unripen (.inl rfl)
  have retired : { State.unripen { s with queue := s.queue.filter fun o => o.slot != k, due := s.due.filter fun o => o.slot != k } k
      with slots := s.slots.set k (s.slot k).retiredFrom }.Shelved none := by
    refine emptied.setSlot (.inr ⟨.inr rfl, .inl rfl⟩) (.inr fun o ho => ?_) (fun hd => ?_) nofun
      (iff_of_false (fun hr => ?_) fun ⟨_, hp, _⟩ => Bool.false_ne_true hp) nofun
    · exact bne_iff_ne.mp (List.mem_filter.mp ho).2
    · obtain ⟨o, ho, e⟩ := List.mem_map.mp hd
      exact absurd e (bne_iff_ne.mp (List.mem_filter.mp ho).2)
    · exact bne_iff_ne.mp (List.mem_filter.mp hr).2 rfl
  have modes : u.Modes := h.modes.lessen rfl id (fun none => by rw [show u.ripe = _ from ripe, none]; rfl)
    (fun none => by rw [show u.due = s.due.filter _ from rfl, none]; rfl) fun _ => id
  refine ⟨⟨modes, ?_⟩, .of_unheld (fun _ _ => id) fun j => .inl ?_⟩
  · show State.Shelved none { s with queue := _, due := _, ripe := _, slots := _ }
    rw [ripe]
    exact retired
  · by_cases e : j = k
    · subst e
      exact (congrArg Slot.value (Table.get_set_self s.slots j (s.slot j).retiredFrom)).trans rfl
    · exact congrArg Slot.value (Table.get_set_ne _ e _)

theorem takeRetire_keeps (s : State) (p : Port) (n : Byte) : s.Keeps X (takeRetire p n s) := by
  unfold takeRetire
  split
  · exact (State.Alike.refuse s p _).keeps
  · next k hc =>
    have used := SlotState.ne_unused_of_taking (State.taking_of_checkSlot hc)
    exact (((State.retireSteps_keeps used).trans (State.testRetirement_keeps _ k)).trans (State.alike_post _ p .done).keeps).trans
      (State.offerAct_keeps _ _ _ _ _)

end SlotTable
end Sys2Proof.Machine
end

section
namespace Sys2Proof.Machine
open Sys2Proof Sys2Proof.Publication Sys2Proof.Views

/-! ### Detachment and port reset (R47, R48, R124 to R127, R184) -/

section Leaving
variable {X : Port → SlotIx → Prop} {s : State} {p : Port}

theorem State.withdraw_keeps (s : State) (p : Port) : s.Keeps X (s.withdraw p) :=
  .of_sound (State.Moves.of_slots rfl).ids id fun h =>
    ⟨⟨h.modes.lessen rfl id id id fun _ => id,
      h.shelved.requeue (n := s.nextOrder) fun o ho => h.shelved.entries o (List.mem_of_mem_filter ho)⟩, .of_slots rfl rfl⟩

/-- The record of a slot without a pending value of `p`'s. -/
def Slot.discarded (p : Port) (r : Slot) : Slot := if r.parkedBy p then { r with parked := none } else r

theorem Slot.state_discarded (p : Port) (r : Slot) : (r.discarded p).state = r.state := by
  unfold Slot.discarded
  split <;> rfl

theorem Slot.parked_discarded (p : Port) (r : Slot) : (r.discarded p).parked = if r.parkedBy p then none else r.parked := by
  unfold Slot.discarded
  split <;> rfl

/-- Step 3 of a detachment leaves every slot in use, and no value of the port's on the lists or in the slots. -/
theorem State.discardPublications_keeps (s : State) (p : Port) : s.Keeps X (s.discardPublications p) := by
  let t := s.discardPublications p
  have slot (k : SlotIx) : t.slot k = (s.slot k).discarded p := Table.get_map _ _ k
  have state (k : SlotIx) : (t.slot k).state = (s.slot k).state := by rw [slot, Slot.state_discarded]
  have parked (k : SlotIx) : (t.slot k).parked = if (s.slot k).parkedBy p then none else (s.slot k).parked := by
    rw [slot, Slot.parked_discarded]
  have moves : s.Moves t := fun k hk => by
    rw [state] at hk
    refine ⟨hk, ?_⟩
    rw [slot, Slot.discarded]
    split <;> rfl
  refine .of_sound moves.ids id fun h => ?_
  obtain ⟨entries, due, dueOnce, pending, ripe, ripeOnce, held, waits, flying⟩ := h.shelved
  have sublist : (t.due.map Offer.slot).Sublist (s.due.map Offer.slot) := List.filter_sublist.map _
  have fewer (k : SlotIx) (o : Offer) (ho : (t.slot k).parked = some o) : (s.slot k).parked = some o := by
    rw [parked] at ho
    split at ho
    · cases ho
    · exact ho
  refine ⟨⟨h.modes.lessen rfl id (fun none => ?_) (fun none => ?_) fun _ => id, ?_⟩, .of_unheld (fun _ _ => id) fun k => .inl ?_⟩
  · rw [show t.ripe = s.ripe.filter _ from rfl, none]
    rfl
  · rw [show t.due = s.due.filter _ from rfl, none]
    rfl
  · refine ⟨fun o ho => ?_, fun k hk => ?_, dueOnce.sublist sublist, fun k o ho => ?_, fun k => ?_, ripeOnce.filter _,
      fun q k hq => ?_, fun q k hw => ?_, flying⟩
    · rw [state]
      exact entries o (List.mem_of_mem_filter ho)
    · obtain ⟨taking, unheld, unparked⟩ := due k (sublist.subset hk)
      rw [state, parked, unparked, ite_self]
      exact ⟨taking, unheld, rfl⟩
    · rw [state]
      exact pending k o (fewer k o ho)
    · show k ∈ s.ripe.filter (fun k => !(s.slot k).parkedBy p) ↔ s.Unheld k ∧ (t.slot k).parked.isSome = true ∧ none ≠ some k
      rw [List.mem_filter, ripe k, parked]
      by_cases hb : (s.slot k).parkedBy p = true <;> simp [hb]
    · rw [state]
      exact held q k hq
    · rw [state]
      exact waits q k hw
  · rw [slot, Slot.discarded]
    split <;> rfl

theorem State.detachStep_keeps (s : State) (p : Port) (st : DetachStep) : s.Keeps X (s.detachStep p st) := by
  cases st with
  | token => exact (State.Alike.freeToken s p).keeps
  | hold => exact s.endHold_keeps p
  | publications => exact s.discardPublications_keeps p
  | requests => exact (State.Alike.detachRequests s p).keeps
  | notes => exact (State.Alike.detachNotes s p).keeps
  | orphan => exact (State.Alike.detachOrphan s p).keeps

theorem State.Alike.detach (s : State) (d : Option (Port × DetachStep)) : s.Alike { s with detaching := d } := .quiet rfl rfl

theorem State.runDetach_keeps (p : Port) (upTo : DetachStep) (fuel : Nat) (st : DetachStep) (s : State) :
    s.Keeps X (State.runDetach p upTo fuel st s) := by
  induction fuel generalizing st s with
  | zero => exact (State.Alike.detach s _).keeps
  | succ fuel ih =>
    have taken : s.Keeps X (s.detachStep p st).settle := (s.detachStep_keeps p st).trans (State.alike_settle _).keeps
    unfold State.runDetach
    refine .ite (fun _ => (State.Alike.detach s _).keeps) fun _ => ?_
    split
    · exact taken.trans (State.Alike.detach _ none).keeps
    · exact taken.trans (ih _ _)

theorem runDetachment_keeps (s : State) (p : Port) (upTo : DetachStep) : s.Keeps X (runDetachment p upTo s) := by
  unfold runDetachment
  split
  · exact .ite (fun _ => s.runDetach_keeps p upTo 6 _) fun _ => .refl s
  · split
    · have begun : s.Alike { s with detachQueue := dropWaiting p s.detachQueue } := .quiet rfl rfl
      exact .ite (fun _ => begun.keeps.trans (State.runDetach_keeps p upTo 6 .token _)) fun _ => .refl s
    · exact .refl s

/-- The port reset of `p`, whose command unit is left with no VIEW that waits behind a landing. -/
theorem State.resetPort_keeps {b : Option Busy} (hb : ∀ c, b = some c → ∀ k, c.phase ≠ .behindLanding k) :
    s.Keeps X (s.resetPort p b) := by
  have cleared : s.Alike (s.modPort p fun _ => { PortUnit.reset with unit := { CommandUnit.reset with busy := b } }) :=
    .modPort fun c hc k hk => absurd hk (hb c hc k)
  have ended (u : State) : u.Keeps X (u.endHold p) := u.endHold_keeps p
  have notes (u : State) : u.Keeps X (u.resetNotes p) := (State.Alike.resetNotes u p).keeps
  have views (u : State) : u.Keeps X (u.resetViewAndNotes p) := by
    have picked : u.Keeps X (u.pick 2).2 := (u.alike_pick 2).keeps
    unfold State.resetViewAndNotes
    refine .ite (fun _ => .ite (fun _ => ?_) fun _ => ?_) fun _ => (ended u).trans (notes _)
    · exact (picked.trans (ended _)).trans (notes _)
    · exact (picked.trans (notes _)).trans (ended _)
  refine (cleared.keeps.trans ((views _).trans (State.withdraw_keeps _ p))).trans ?_
  exact (((State.Alike.dropRequester _ p).trans (State.Alike.freeToken _ p)).trans (State.Alike.report _ p _)).keeps

end Leaving

/-! ### The commands of the Control Unit, and the command unit (R144, R150, R152, R154, R158, R171) -/

section Control
variable {X : Port → SlotIx → Prop} {s : State} {p : Port} {n : Byte}

theorem takeRestart_keeps (s : State) : s.Keeps X (takeRestart s) := by
  refine State.keeps_of_modes (x := s.exchange) (m := true) (f := s.freezeMark) (t := s.task) (fun h => ?_) id
  obtain ⟨flying, tasked, freezing, restarting, ripe, due⟩ := h.modes
  exact ⟨flying, tasked, freezing, fun hx => ⟨rfl, (restarting hx).2⟩, ripe, due⟩

theorem takeFreeze_keeps (s : State) (p : Port) : s.Keeps X (takeFreeze p s) := by
  unfold takeFreeze
  split
  · exact s.callFreeze_keeps
  · exact s.callFreeze_keeps
  · exact .refl s
  · exact (s.alike_post p .done).keeps
  · exact .refl s

/-- A FROZEN exchange begins a step or a drain. -/
theorem State.stepOff_keeps (hx : s.exchange = .frozen) (t : Task) : s.Keeps X { s with exchange := .stepping, task := some t } := by
  refine State.keeps_of_modes (x := .stepping) (m := s.restartMark) (f := s.freezeMark) (t := some t) (fun h => ?_) nofun
  obtain ⟨-, -, -, -, -, due⟩ := h.modes
  refine ⟨fun _ => .inr (.inr rfl), ⟨fun _ => rfl, fun _ => rfl⟩, fun _ => rfl, nofun, fun _ => .inr rfl, fun hd => ?_⟩
  rcases due hd with e | e <;> rw [hx] at e <;> cases e

theorem takeStepCommand_keeps (s : State) (p : Port) : s.Keeps X (takeStepCommand p s) := by
  unfold takeStepCommand
  split
  · next hx =>
    split
    · exact State.stepOff_keeps hx _
    · split
      · exact State.stepOff_keeps hx _
      · exact (State.Alike.refuse s p _).keeps
  all_goals exact (State.Alike.refuse s p _).keeps

theorem takeResume_keeps (s : State) (p : Port) : s.Keeps X (takeResume p s) := by
  unfold takeResume
  split
  · next hx =>
    split
    · exact State.stepOff_keeps hx _
    · next hr =>
      have runs : s.Keeps X { s with exchange := .running } := by
        refine State.keeps_of_modes (x := .running) (m := s.restartMark) (f := s.freezeMark) (t := s.task) (fun h => ?_) nofun
        obtain ⟨-, tasked, freezing, -, -, -⟩ := h.modes
        rw [hx] at tasked freezing
        exact ⟨fun _ => .inl rfl, by simpa using tasked, by simpa using freezing, nofun, fun hne => absurd hr hne, fun _ => .inl rfl⟩
      exact runs.trans (State.alike_post _ p .done).keeps
  all_goals exact (State.Alike.refuse s p _).keeps

theorem takeCancelHead_keeps (s : State) (p : Port) : s.Keeps X (takeCancelHead p s) := by
  unfold takeCancelHead
  refine .ite (fun _ => (State.Alike.refuse s p _).keeps) fun _ => ?_
  split
  · exact (State.Alike.refuse s p _).keeps
  · next o rest hq =>
    have dropped : s.Keeps X { s with queue := rest } := by
      refine .of_sound (State.Moves.of_slots rfl).ids id fun h => ⟨⟨h.modes.lessen rfl id id id fun _ => id, ?_⟩, .of_slots rfl rfl⟩
      exact h.shelved.requeue (n := s.nextOrder) (List.forall_mem_cons.mp (hq ▸ h.shelved.entries)).2
    refine (dropped.trans ?_).trans (State.alike_post _ p .done).keeps
    exact .ite (fun _ => (State.alike_timeOutRequesters _ _).keeps) fun _ => (State.alike_tellDropped _ _ _).keeps

theorem State.ifToken_keeps {f : State → State} (hf : s.Keeps X (f s)) : s.Keeps X (s.ifToken p f) :=
  .ite (fun _ => hf) fun _ => (State.Alike.refuse s p _).keeps

/-- A command that is passed to its block while the exchange is not RESTARTING; of the ports and slots of `X` all are holders. -/
theorem takeCommand_keeps (hX : ∀ q j, X q j → s.holding q j = true) (hr : s.exchange ≠ .restarting) (c : Command) :
    s.Keeps X (takeCommand c p n s) := by
  have token {f : State → State} (hf : s.Keeps X (f s)) : s.Keeps X (s.ifToken p f) := State.ifToken_keeps hf
  cases c with
  | publish => exact takePublish_keeps s p n
  | view => exact takeView_keeps hX hr
  | release => exact takeRelease_keeps s p
  | request => exact takeRequest_keeps s p n
  | claimToken => exact (State.Alike.takeClaim s p).keeps
  | yieldToken => exact (State.Alike.takeYield s p).keeps
  | configureSlot => exact token (takeConfigure_keeps s p n)
  | retireSlot => exact token (takeRetire_keeps s p n)
  | setHoldTimeout => exact token (State.Alike.takeHoldTimeout s p).keeps
  | setTime => exact token (State.Alike.takeSetTime s p).keeps
  | setRejoinPolicy => exact token (State.Alike.takeRejoinPolicy s p).keeps
  | expel => exact token (State.Alike.takeExpel s p).keeps
  | restart => exact token (takeRestart_keeps s)
  | freeze => exact token (takeFreeze_keeps s p)
  | resume => exact token (takeResume_keeps s p)
  | step => exact token (takeStepCommand_keeps s p)
  | inspect => exact token (State.Alike.takeInspect s p).keeps
  | cancelHead => exact token (takeCancelHead_keeps s p)
  | armWatch => exact token (State.Alike.takeArm s p).keeps
  | disarmWatch => exact token (State.Alike.takeDisarm s p).keeps
  | readCapture => exact token (State.Alike.takeReadCapture s p).keeps
  | rejoin => exact (State.Alike.takeRejoin s p).keeps
  | resetPort => exact .refl s

theorem State.writeResetPort_keeps (s : State) (p : Port) (n : Byte) : s.Keeps X (s.writeResetPort p n) :=
  .ite (fun _ => .refl s) fun _ => State.resetPort_keeps fun c hc k hk => by
    cases hc
    cases hk

theorem State.writeCommand_keeps (hX : ∀ q j, X q j → s.holding q j = true) (p : Port) (c : Command) (n : Byte) :
    s.Keeps X (s.writeCommand p c n) := by
  have accepted := State.Alike.acceptWrite s p c n
  unfold State.writeCommand
  refine .ite (fun _ => s.writeResetPort_keeps p n) fun _ => .ite (fun _ => (State.Alike.overrun s p).keeps) fun _ => ?_
  refine accepted.keeps.trans (.ite (fun _ => (State.Alike.refuse _ p _).keeps) fun _ => .ite (fun _ => ?_) fun hr => ?_)
  · exact (State.alike_setPhase _ p (by simp)).keeps
  · exact takeCommand_keeps (fun q j hq => (accepted.holds q j).trans (hX q j hq)) hr c

theorem State.writeCommandWord_keeps (hX : ∀ q j, X q j → s.holding q j = true) (p : Port) (w : Word) :
    s.Keeps X (s.writeCommandWord p w) := by
  unfold State.writeCommandWord
  split
  · exact State.writeCommand_keeps hX p _ _
  · exact (State.Alike.writeUndefined s p).keeps

end Control
end Sys2Proof.Machine
end

section
namespace Sys2Proof.Machine
open Sys2Proof Sys2Proof.Publication Sys2Proof.Views

/-! ### The restart and the device reset (R25, R145, R146, R181) -/

/-- What an event does to the laws of identifiers and holds. -/
structure State.Upkeep (X : Port → SlotIx → Prop) (s t : State) : Prop where
  ids : s.IdentifierLaw → t.IdentifierLaw
  sound : s.Sound → t.Sound
  shows : s.Sound → s.Shows X t

section Restart
variable {X : Port → SlotIx → Prop} {s t u : State} {p : Port} {k : SlotIx}

theorem State.Keeps.upkeep (h : s.Keeps X t) : s.Upkeep X t := ⟨h.ids, h.sound, h.shows⟩

theorem State.Upkeep.trans (h : s.Upkeep X t) (g : t.Upkeep X u) : s.Upkeep X u :=
  ⟨g.ids ∘ h.ids, g.sound ∘ h.sound, fun hs => (h.shows hs).trans (g.shows (h.sound hs))⟩

theorem Slot.restarted_of_used (r : Slot) (h : r.restarted.state ≠ .unused) :
    r.state.taking = true ∧ r.restarted.config = r.config := by
  unfold Slot.restarted at h ⊢
  cases e : r.state <;> rw [e] at h <;> simp_all [SlotState.taking, Slot.cleared]

theorem Slot.restarted_of_taking (r : Slot) (h : r.state.taking = true) : r.restarted.state = .opened := by
  unfold Slot.restarted
  cases e : r.state <;> rw [e] at h <;> first | rfl | cases h

theorem Slot.parked_restarted (r : Slot) : r.restarted.parked = none := by
  unfold Slot.restarted
  split <;> rfl

/-- VIEWs that wait for slots of a list are left to be answered RETIRING. -/
theorem State.foldl_viewsGone (l : List SlotIx) (s : State) :
    l.foldl State.viewsGone s = { s with ports := (l.foldl State.viewsGone s).ports } ∧
      ∀ p k, (l.foldl State.viewsGone s).phaseOf p = some (.behindLanding k) → s.phaseOf p = some (.behindLanding k) ∧ k ∉ l := by
  induction l generalizing s with
  | nil => exact ⟨rfl, fun _ _ h => ⟨h, List.not_mem_nil⟩⟩
  | cons j l ih =>
    obtain ⟨frame, gone⟩ := ih (s.viewsGone j)
    refine ⟨?_, fun p k h => ?_⟩
    · rw [List.foldl_cons, frame, s.viewsGone_frame]
    · obtain ⟨waits, out⟩ := gone p k h
      obtain ⟨before, other⟩ := State.phaseOf_viewsGone waits
      exact ⟨before, fun hk => (List.mem_cons.mp hk).elim other out⟩

/-- What the blocks' parts of a restart leave of `s`, before the commands that waited for a freeze complete: every block cleared, and the
Port Units as in `ports`. -/
def State.restartedWith (s : State) (ports : PerPort PortUnit) : State :=
  { s with
    ports := ports
    slots := s.slots.map Slot.restarted
    queue := [], due := [], ripe := []
    holds := PerPort.fill none
    notes := PerPort.ofFn fun p => { s.noteUnit p with queue := [], delivery := .delivering }
    lostOwners := PortSet.empty
    health := PerPort.ofFn fun p => (s.healthOf p).restarted
    detaching := none, detachQueue := []
    exchange := .restarting, freezeMark := false, task := none }

/-- The Port Units once every VIEW for a RETIRING slot is left to be answered RETIRING. -/
def State.portsOfRestart (s : State) : PerPort PortUnit := (s.retiringSlots.foldl State.viewsGone s).ports

theorem beginRestart_of_mark (hm : s.restartMark = true) (hf : s.flight = none) (hx : s.exchange ≠ .restarting) :
    beginRestart s =
      ((((s.restartedWith s.portsOfRestart).completeAll .freeze).completeAll .step).completeAll .resume).completeExpels := by
  obtain ⟨frame, -⟩ := State.foldl_viewsGone s.retiringSlots s
  rw [beginRestart, if_pos (by simp [hm, hf, hx])]
  dsimp only
  rw [frame]
  rfl

theorem beginRestart_of_not (h : ¬(s.restartMark = true ∧ s.flight = none ∧ s.exchange ≠ .restarting)) : beginRestart s = s := by
  rw [beginRestart, if_neg]
  simpa [and_assoc] using h

theorem State.slot_restartedWith (s : State) (ports : PerPort PortUnit) (k : SlotIx) :
    (s.restartedWith ports).slot k = (s.slot k).restarted := Table.get_map _ _ _

theorem State.unheld_restartedWith (s : State) (ports : PerPort PortUnit) (k : SlotIx) : (s.restartedWith ports).Unheld k := fun p => by
  have free : (s.restartedWith ports).hold p = none := PerPort.get_fill _ _
  rw [State.holding, free]

/-- A VIEW that waits through the beginning of a restart waits for a slot that is OPEN after it. -/
theorem State.Sound.waits_restart (h : s.Sound)
    (hw : (s.restartedWith s.portsOfRestart).phaseOf p = some (.behindLanding k)) : (s.slot k).restarted.state ≠ .unused := by
  obtain ⟨-, gone⟩ := State.foldl_viewsGone s.retiringSlots s
  obtain ⟨before, active⟩ := gone p k hw
  have used := (h.shelved.waits p k before).2
  have other : (s.slot k).state ≠ .retiring := by simpa [State.retiringSlots, allSlots] using active
  have taking : (s.slot k).state.taking = true := by
    cases e : (s.slot k).state <;> first | rfl | exact absurd e used | exact absurd e other
  rw [Slot.restarted_of_taking _ taking]
  decide

/-- With the restart mark set and no landing in flight, the cleared records are in order. -/
theorem State.Sound.restarted (h : s.Sound) (hm : s.restartMark = true) (hf : s.flight = none) :
    (s.restartedWith s.portsOfRestart).Sound := by
  have unheld (k : SlotIx) := s.unheld_restartedWith s.portsOfRestart k
  have waits (p : Port) (k : SlotIx) := h.waits_restart (p := p) (k := k)
  have slot (k : SlotIx) := s.slot_restartedWith s.portsOfRestart k
  obtain ⟨queue, due, ripe, flight, mark, mode⟩ : (s.restartedWith s.portsOfRestart).queue = [] ∧
      (s.restartedWith s.portsOfRestart).due = [] ∧ (s.restartedWith s.portsOfRestart).ripe = [] ∧
      (s.restartedWith s.portsOfRestart).flight = none ∧ (s.restartedWith s.portsOfRestart).restartMark = true ∧
      (s.restartedWith s.portsOfRestart).mode = (.restarting, none, false, s.restartMark) := ⟨rfl, rfl, rfl, hf, hm, rfl⟩
  generalize s.restartedWith s.portsOfRestart = t at unheld waits slot queue due ripe flight mark mode ⊢
  obtain ⟨exchange, task, freezeMark, -⟩ : t.exchange = .restarting ∧ t.task = none ∧ t.freezeMark = false ∧ _ := by
    simpa only [State.mode, Prod.mk.injEq] using mode
  constructor
  · constructor <;> simp [flight, task, exchange, freezeMark, mark, unheld, ripe, due]
  · have parked (k : SlotIx) : (t.slot k).parked = none := by rw [slot, Slot.parked_restarted]
    refine ⟨by simp [queue], by simp [due], by simp [due], by simp [parked], by simp [ripe, parked], by simp [ripe],
      fun p k hp => ?_, fun p k hw => ⟨unheld k p, slot k ▸ waits p k hw⟩, by simp [flight]⟩
    rw [unheld k p] at hp
    cases hp

theorem beginRestart_upkeep (s : State) : s.Upkeep X (beginRestart s) := by
  by_cases hb : s.restartMark = true ∧ s.flight = none ∧ s.exchange ≠ .restarting
  · obtain ⟨mark, flight, running⟩ := hb
    rw [beginRestart_of_mark mark flight running]
    have finished (t : State) : t.Alike (((t.completeAll .freeze).completeAll .step).completeAll .resume).completeExpels :=
      (((t.alike_completeAll .freeze).trans (State.alike_completeAll _ .step)).trans (State.alike_completeAll _ .resume)).trans
        (State.Alike.completeExpels _)
    refine State.Upkeep.trans ?_ (finished (s.restartedWith s.portsOfRestart)).keeps.upkeep
    have unheld (k : SlotIx) := s.unheld_restartedWith s.portsOfRestart k
    have moves : s.Moves (s.restartedWith s.portsOfRestart) := fun k hk => by
      rw [State.slot_restartedWith] at hk ⊢
      obtain ⟨taking, config⟩ := Slot.restarted_of_used _ hk
      exact ⟨SlotState.ne_unused_of_taking taking, by rw [config]⟩
    refine ⟨moves.ids, fun h => h.restarted mark flight, fun _ => .of_unheld (fun p k hp => ?_) fun k => .inr (unheld k)⟩
    rw [unheld k p] at hp
    cases hp
  · rw [beginRestart_of_not hb]
    exact (State.Keeps.refl s).upkeep

/-- A waiting command is released into an exchange that is RUNNING again. -/
theorem State.release_keeps (hr : s.exchange ≠ .restarting) (p : Port) : s.Keeps nobody (s.release p) := by
  unfold State.release
  split
  · exact (s.alike_setPhase p (ph := .taken) (by simp)).keeps.trans
      (takeCommand_keeps (s := s.setPhase p .taken) (fun _ _ => False.elim) hr _)
  · exact .refl s

/-- With no port a holder during a restart, no value is seen before its end. -/
theorem endRestart_upkeep (hX : ∀ q j, X q j → s.holding q j = true) : s.Upkeep X (endRestart s) := by
  unfold endRestart
  split
  case isFalse => exact (State.Keeps.refl s).upkeep
  case isTrue hx =>
    dsimp only
    generalize hb : ({ s with restartMark := false, exchange := .running } : State) = b
    have running : b.exchange = .running := by rw [← hb]
    have begun : s.Upkeep nobody b := by
      subst hb
      refine ⟨(State.Moves.of_slots rfl).ids, fun h => ⟨?_, h.shelved.remode⟩, fun _ _ _ => False.elim⟩
      obtain ⟨-, tasked, freezing, -, ripe, -⟩ := h.modes
      rw [hx] at tasked freezing ripe
      exact ⟨fun _ => .inl rfl, by simpa using tasked, by simpa using freezing, nofun, by simpa using ripe, fun _ => .inl rfl⟩
    generalize hc : (b.completeAll .restart).shuffle (b.completeAll .restart).waitingPorts = c
    have started : b.Keeps nobody c.2 := by
      rw [← hc]
      exact ((b.alike_completeAll .restart).trans (State.alike_shuffle _ _)).keeps
    have released : b.Keeps nobody (c.1.foldl (fun u p => (u.release p).settle) c.2) := by
      refine foldl_keeps (P := b.Keeps nobody) (fun u p hu => ?_) _ _ started
      have runs : u.exchange ≠ .restarting := fun hr => by
        have := hu.runs hr
        rw [running] at this
        cases this
      exact hu.trans ((State.release_keeps runs p).trans (State.alike_settle _).keeps)
    obtain ⟨ids, sound, -⟩ := begun.trans released.upkeep
    refine ⟨ids, sound, fun h q j hq => ?_⟩
    have free := (h.modes.restarting hx).2 j q
    rw [hX q j hq] at free
    cases free

theorem State.sound_reset : State.reset.Sound := by
  have unheld (p : Port) (k : SlotIx) : State.reset.holding p k = false := by
    rw [State.holding, State.reset_hold]
  have idle (p : Port) : State.reset.phaseOf p = none := by
    rw [State.phaseOf, State.reset_port]
    rfl
  have slot (k : SlotIx) := State.reset_slot k
  obtain ⟨queue, due, ripe, flight, exchange, task, freezeMark⟩ : State.reset.queue = [] ∧ State.reset.due = [] ∧
      State.reset.ripe = [] ∧ State.reset.flight = none ∧ State.reset.exchange = .running ∧ State.reset.task = none ∧
      State.reset.freezeMark = false := ⟨rfl, rfl, rfl, rfl, rfl, rfl, rfl⟩
  generalize State.reset = t at unheld idle slot queue due ripe flight exchange task freezeMark ⊢
  constructor
  · constructor <;> simp [flight, task, exchange, freezeMark, ripe, due]
  · have parked (k : SlotIx) : (t.slot k).parked = none := by rw [slot]; rfl
    exact ⟨by simp [queue], by simp [due], by simp [due], by simp [parked], by simp [ripe, parked], by simp [ripe], by simp [unheld],
      by simp [idle], by simp [flight]⟩

theorem State.identifierLaw_reset : State.reset.IdentifierLaw := fun j _ hj => by
  rw [State.reset_slot] at hj
  exact absurd rfl hj

theorem State.deviceReset_upkeep (s : State) : s.Upkeep X s.deviceReset := by
  have alike : State.reset.Alike s.deviceReset := .quiet rfl rfl
  refine ⟨fun _ => alike.moves.ids State.identifierLaw_reset, fun _ => alike.sound State.sound_reset, fun _ p k _ hp => ?_⟩
  rw [alike.holds p k, State.holding, State.reset_hold] at hp
  cases hp

end Restart

/-! ### Every event (R3, R12, R46, R57) -/

section Events
variable {X : Port → SlotIx → Prop} {s t : State} {c : Instr} {p : Port} {f : State → State}

theorem event_upkeep (h : event f s = .next t) (hf : s.Upkeep X (f s)) : s.Upkeep X t := by
  have e : (if s.inReset then s else (f s).settle) = t := Host.Outcome.next.inj h
  rw [← e]
  split
  · exact (State.Keeps.refl s).upkeep
  · exact hf.trans (State.alike_settle _).keeps.upkeep

theorem event_keeps (h : event f s = .next t) (hf : s.Keeps X (f s)) : s.Upkeep X t := event_upkeep h hf.upkeep

theorem cycle_keeps (h : cycle p f s = .next t) (hf : s.Keeps X (f s)) : s.Upkeep X t :=
  event_keeps (f := fun t => if t.lineLow.has p then t else f t) h (State.Keeps.ite (fun _ => .refl s) fun _ => hf)

theorem State.Alike.lines (s : State) (x : PortSet) : s.Alike { s with lineLow := x } := .quiet rfl rfl

theorem execPortReset_upkeep (h : execPortReset p s = .next t) : s.Upkeep X t := by
  unfold execPortReset at h
  split at h
  · cases h
    exact (State.Alike.lines s _).keeps.upkeep
  · exact (State.Alike.lines s _).keeps.upkeep.trans (event_keeps h (State.resetPort_keeps fun _ hc => by cases hc))

/-- Each event keeps the laws of identifiers and holds, and shows the ports of `X` the same values, where those are holders. -/
theorem exec_upkeep (hX : ∀ q j, X q j → s.holding q j = true) (h : exec c s = .next t) : s.Upkeep X t := by
  have word (p : Port) (w : Word) : s.Keeps X (s.writeCommandWord p w) := State.writeCommandWord_keeps hX p w
  have unit (p : Port) {f : PortUnit → PortUnit} (hf : ∀ u, (f u).unit.busy = u.unit.busy) : s.Keeps X (s.modPort p f) :=
    (State.Alike.modUnit s p hf).keeps
  cases c with
  | undefinedCommand p b n => exact cycle_keeps (f := fun u => u.writeCommandWord p (b ++ n)) h (word p _)
  | registerWrite p off w =>
    exact cycle_keeps (f := fun u => if off = 0#6 then u.writeCommandWord p w else u.writeStored p off w) h
      (State.Keeps.ite (fun _ => word p w) fun _ => (State.Alike.writeStored s p off w).keeps)
  | attentionEnableWrite p w => exact cycle_keeps (f := fun u => u.writeEnables p w) h (unit p fun _ => rfl)
  | resultRead p => exact cycle_keeps h (unit p fun _ => rfl)
  | timeLowRead p => exact cycle_keeps h (unit p fun _ => rfl)
  | noteTake p => exact cycle_keeps h (takeNote_keeps s p)
  | deviceReset =>
    cases h
    exact s.deviceReset_upkeep
  | deviceResetRelease =>
    cases h
    have rises : s.Alike { s with inReset := false } := .quiet rfl rfl
    exact rises.keeps.upkeep
  | portReset p => exact execPortReset_upkeep h
  | resetPortDone p => exact event_keeps h (State.Alike.finishResetPort s p).keeps
  | takeNextValue => exact event_keeps h s.takeNext_keeps
  | landingService => exact event_keeps h (State.Alike.serveLanding s).keeps
  | landingNotification => exact event_keeps h (State.Alike.notifyLanding s).keeps
  | landingTimePart => exact event_keeps h (State.Alike.timeLanding s).keeps
  | landingEnd => exact event_keeps h (endLanding_keeps hX)
  | viewGrant p => exact event_keeps (f := fun u => u.grantWaiting p) h (State.grantWaiting_keeps hX p)
  | holdExpiry p => exact event_keeps h (expireHold_keeps s p)
  | deadlineExpiry k => exact event_keeps h (State.Alike.expireDeadline s k).keeps
  | freshnessExpiry k => exact event_keeps h (State.Alike.expireFreshness s k).keeps
  | quietIntervalEnd p => exact event_keeps h (State.Alike.endQuiet s p).keeps
  | detachment p upTo => exact event_keeps h (runDetachment_keeps s p upTo)
  | restartBegin => exact event_upkeep h (beginRestart_upkeep s)
  | restartEnd => exact event_upkeep h (endRestart_upkeep hX)
  | timeBaseAdvance => exact event_keeps h (State.Alike.tick s).keeps
  | _ p n => exact cycle_keeps (p := p) (f := fun u => u.writeCommand p _ n) h (State.writeCommand_keeps hX p _ n)

/-- No report waits after an event (log entry 6). -/
theorem exec_reports (h0 : s.reports = []) (h : exec c s = .next t) : t.reports = [] := by
  have settled {f : State → State} {u : State} (hu : u.reports = []) (e : event f u = .next t) : t.reports = [] := by
    have e' : (if u.inReset then u else (f u).settle) = t := Host.Outcome.next.inj e
    rw [← e']
    split
    · exact hu
    · exact State.settle_reports _
  by_cases hd : c = .deviceReset
  · subst hd
    cases h
    rfl
  by_cases hr : c = .deviceResetRelease
  · subst hr
    cases h
    exact h0
  by_cases hp : ∃ p, c = .portReset p
  · obtain ⟨p, rfl⟩ := hp
    replace h : execPortReset p s = .next t := h
    unfold execPortReset at h
    split at h
    · cases h
      exact h0
    · exact settled (u := { s with lineLow := s.lineLow.insert p }) h0 h
  · obtain ⟨f, hf⟩ := PortInterface.exec_eq_event hd hr fun p e => hp ⟨p, e⟩
    exact settled h0 ((hf s).symm.trans h)

/-- A step takes nothing of the laws but by its event. -/
theorem step_cases (h : step s = .next t) : t = s ∨ ∃ c u, s.Alike u ∧ u.reports = s.reports ∧ exec c u = .next t := by
  cases hp : s.pending with
  | nil =>
    rw [step_of_pending_nil hp] at h
    exact .inl (Host.Outcome.next.inj h).symm
  | cons c rest =>
    rw [step_of_pending_cons hp] at h
    exact .inr ⟨c, { s with pending := rest }, .quiet rfl rfl, rfl, h⟩

end Events

/-- Settles O7: an event opens a slot under an identifier only where no slot in use carries it, and lets no slot in use change its own. -/
theorem stepKeepsIdentifierLaw : Obligations.StepKeepsIdentifierLaw := by
  intro s t law h
  rcases step_cases h with rfl | ⟨c, u, alike, -, e⟩
  · exact law
  · exact (exec_upkeep (X := nobody) (fun _ _ => False.elim) e).ids (alike.moves.ids law)

/-- Settles O9: the law is soundness with no report waiting, and every operation of the part keeps soundness. -/
theorem stepKeepsHoldLaw : Obligations.StepKeepsHoldLaw := by
  intro s t law h
  rcases step_cases h with rfl | ⟨c, u, alike, reports, e⟩
  · exact law
  · obtain ⟨sound, none⟩ := State.holdLaw_iff.mp law
    exact State.holdLaw_iff.mpr ⟨(exec_upkeep (X := nobody) (fun _ _ => False.elim) e).sound (alike.sound sound),
      exec_reports (reports.trans none) e⟩

/-- Settles O11: a landing writes only into a slot that no port holds, and a grant is of a slot that its port did not hold. -/
theorem valueStaysUnderItsHolder : Obligations.ValueStaysUnderItsHolder := by
  intro c s t p k law h before after
  have ⟨sound, _⟩ := State.holdLaw_iff.mp law
  have kept : s.Upkeep (fun q j => s.holding q j = true) t := exec_upkeep (fun _ _ => id) h
  exact (kept.shows sound p k before after).2

end Sys2Proof.Machine
end

section
namespace Sys2Proof.Machine
open Sys2Proof

/-! ### The device reset state (R23, R88, R104, R117, R137, R159, R170, R180) -/

section Reset
variable {p : Port}

theorem statusWord_reset (p : Port) : State.reset.statusWord p = 0#16 := by
  cases p <;> decide

theorem scoreWord_reset (p : Port) : State.reset.scoreWord p = 0#16 := by
  rw [State.scoreWord, State.reset_healthOf]
  decide

theorem viewHeader_reset (p : Port) : State.reset.viewHeader p = 0#16 := by
  rw [State.viewHeader, State.reset_hold]

theorem viewed_reset (p : Port) (f : SlotValue → Word) : State.reset.viewed p f = 0#16 := by
  rw [State.viewed, State.reset_hold]

theorem ite_eq_of_both {α : Type} {c : Prop} [Decidable c] {x y z : α} (hx : x = z) (hy : y = z) : (if c then x else y) = z := by
  rw [hx, hy, ite_self]

/-- Every word of the window reads 0: each is a field of a reset record (R170). -/
theorem windowRead_reset (p : Port) (off : BitVec 6) : State.reset.windowRead p off = 0#16 := by
  have port := State.reset_port p
  have note := State.reset_noteUnit p
  have hold := State.reset_hold p
  have status := statusWord_reset p
  have score := scoreWord_reset p
  have viewed := viewed_reset p
  have header := viewHeader_reset p
  have time : State.reset.time = 0#32 := rfl
  generalize State.reset = t at port note hold status score viewed header time
  rw [State.windowRead, port, note, hold, time]
  refine ite_eq_of_both rfl <| ite_eq_of_both rfl <| ite_eq_of_both rfl <| ite_eq_of_both rfl <| ite_eq_of_both rfl <|
    ite_eq_of_both status <| ite_eq_of_both score <| ite_eq_of_both rfl <| ite_eq_of_both rfl <| ite_eq_of_both rfl <|
    ite_eq_of_both (Table.get_fill _ _) <| ite_eq_of_both header <| ite_eq_of_both rfl <| ite_eq_of_both (viewed _) <|
    ite_eq_of_both (viewed _) <| ite_eq_of_both (viewed _) <| ite_eq_of_both (viewed _) <| ite_eq_of_both rfl <|
    ite_eq_of_both rfl <| ite_eq_of_both rfl <| ite_eq_of_both rfl <| ite_eq_of_both rfl <| ite_eq_of_both rfl <|
    ite_eq_of_both rfl <| ite_eq_of_both rfl <| ite_eq_of_both ?_ rfl
  have filter (i : Fin 8) : NoteUnit.reset.filters.get i = Filter.cleared := Table.get_fill _ i
  dsimp only
  rw [filter]
  exact ite_eq_of_both rfl rfl

theorem attention_reset (p : Port) : State.reset.attention p = false := by
  simp [State.attention, State.attentionRequest, PortUnit.reset, CommandUnit.reset]

theorem scoreLaw_reset : State.reset.ScoreLaw := fun p => by
  rw [State.reset_healthOf]
  exact ⟨Nat.zero_le _, rfl, fun _ => rfl⟩

theorem publicationLaw_reset : State.reset.PublicationLaw := by
  have queue : State.reset.queue = [] := rfl
  simp [State.PublicationLaw, State.entriesOf, queue]

theorem notesLaw_reset : State.reset.NotesLaw := fun p => by
  have queue : (State.reset.noteUnit p).queue = [] := by rw [State.reset_noteUnit]; rfl
  rw [queue]
  exact Publication.noteQueueLaw_nil

theorem detachedLaw_reset : State.reset.DetachedLaw := by
  refine State.detachedLaw_of_inside (fun p => ?_) rfl rfl fun p c hc => ?_
  · rw [State.reset_healthOf]
    exact ⟨rfl, rfl⟩
  · rw [State.reset_port] at hc
    cases hc

theorem timerLaw_reset : State.reset.TimerLaw := by
  refine ⟨fun p h hh => ?_, fun p e _ hq => ?_, fun k d hd => ?_⟩
  · rw [State.reset_hold] at hh
    cases hh
  · rw [State.reset_healthOf] at hq
    cases hq
  · rw [State.reset_slot] at hd
    rcases hd with hd | hd <;> cases hd

end Reset

/-- Settles O2: the records are those of device reset, and each law holds of them with nothing queued, held, armed or detached. -/
theorem resetState : Obligations.ResetState := by
  refine ⟨State.reset_slot, rfl, rfl, rfl, rfl, rfl, rfl, rfl, rfl, rfl, rfl, rfl, rfl, rfl,
    ⟨rfl, rfl, rfl, rfl, rfl, rfl, rfl, rfl, rfl, rfl⟩, fun p => ?_, scoreLaw_reset, publicationLaw_reset, notesLaw_reset,
    State.identifierLaw_reset, State.requesterLaw_reset, State.holdLaw_iff.mpr ⟨State.sound_reset, rfl⟩, detachedLaw_reset,
    timerLaw_reset⟩
  have note := State.reset_noteUnit p
  exact ⟨State.reset_hold p, by rw [note]; rfl, by rw [note]; rfl, fun i => by rw [note]; exact Table.get_fill _ i,
    State.reset_healthOf p, windowRead_reset p, attention_reset p⟩

end Sys2Proof.Machine
end

section
namespace Sys2Proof.Machine
open Sys2Proof Sys2Proof.Publication Sys2Proof.Views Sys2Proof.PortHealth

/-! ### The beginning of a restart (R25, R136, R144, R145) -/

section RestartBegins
variable {s : State} {p : Port} {k : SlotIx} {f g : Port → Bool}

theorem port_finished (s : State) (f : Port → Bool) (p : Port) :
    (s.finished f).port p =
      if f p then { s.port p with unit := { (s.port p).unit with busy := none, result := .done, done := true } } else s.port p :=
  PerPort.get_ofFn _ p

theorem finishedDone_finished (h : f p = true) : FinishedDone (s.finished f) p := by
  rw [FinishedDone, port_finished, if_pos h]
  exact ⟨rfl, rfl, rfl⟩

theorem finishedDone_finished_of_done (h : FinishedDone s p) : FinishedDone (s.finished f) p := by
  by_cases hf : f p = true
  · exact finishedDone_finished hf
  · rw [FinishedDone, port_finished, if_neg hf]
    exact h

/-- The commands that wait for a freeze complete, each once (R150, R153, R155). -/
theorem completeFreezers_eq (s : State) :
    ((s.completeAll .freeze).completeAll .step).completeAll .resume = s.finished s.waitsForFreeze := by
  simp only [State.completeAll_eq, State.finished_finished, State.inHand_finished]
  congr 1
  funext q
  unfold State.waitsForFreeze
  cases s.inHand q .freeze <;> cases s.inHand q .step <;> cases s.inHand q .resume <;> rfl

/-- Is an EXPEL of `q`'s in hand, which has begun a detachment or waits for one? -/
def State.expels (s : State) (q : Port) : Bool :=
  match s.phaseOf q with
  | some (.expelling _ _) => true
  | some .taken | some .afterRestart | some (.behindLanding _) | some .slotGone | none => false

theorem State.expels_iff : s.expels p = true ↔ ∃ q b, s.phaseOf p = some (.expelling q b) := by
  unfold State.expels
  split <;> simp_all

/-- `q`'s EXPEL, where one is in hand, completes with DONE. -/
def answerExpel (s : State) (q : Port) : State :=
  match s.phaseOf q with
  | some (.expelling _ _) => s.post q .done
  | some .taken | some .afterRestart | some (.behindLanding _) | some .slotGone | none => s

theorem answerExpel_eq (s : State) (q : Port) :
    answerExpel s q = { s with ports := s.ports.set q (if s.expels q then
      { s.port q with unit := { (s.port q).unit with busy := none, result := .done, done := true } } else s.port q) } := by
  unfold answerExpel State.expels
  split
  · next h =>
    obtain ⟨c, hc⟩ := busy_of_phaseOf h
    rw [State.post_busy hc]
    rfl
  all_goals exact (congrArg (fun x => { s with ports := x }) (PerPort.set_get_self s.ports q)).symm

/-- Every port whose EXPEL is in hand is answered DONE, and no other port is touched. -/
theorem completeExpels_eq (s : State) : s.completeExpels = s.finished s.expels := by
  show Port.all.foldl answerExpel s = _
  simp only [Port.all, List.foldl_cons, List.foldl_nil, answerExpel_eq]
  rfl

/-- A port whose VIEW does not wait behind a landing keeps its Port Unit. -/
theorem port_foldl_viewsGone (h : ∀ k, s.phaseOf p ≠ some (.behindLanding k)) (l : List SlotIx) :
    (l.foldl State.viewsGone s).port p = s.port p := by
  induction l generalizing s with
  | nil => rfl
  | cons j l ih =>
    have unit : (s.viewsGone j).port p = s.port p := by
      rw [viewsGone_eq]
      exact (PerPort.get_ofFn _ p).trans (unitGone_of_not_waiting (h j))
    rw [List.foldl_cons, ih (by rw [State.phaseOf, unit]; exact h), unit]

theorem State.phaseOf_of_inHand {c : Command} (h : s.inHand p c = true) : s.phaseOf p = some .taken := by
  obtain ⟨b, hb⟩ := State.inHand_busy h
  simp only [State.inHand, hb, Bool.and_eq_true, beq_iff_eq] at h
  simp [State.phaseOf, hb, h.2]

theorem State.phaseOf_of_waitsForFreeze (h : s.waitsForFreeze p = true) : s.phaseOf p = some .taken := by
  simp only [State.waitsForFreeze, Bool.or_eq_true] at h
  rcases h with (h | h) | h <;> exact State.phaseOf_of_inHand h

/-- What hangs on a port's Port Unit alone. -/
theorem State.commands_of_port {t : State} (h : t.port p = s.port p) :
    t.waitsForFreeze p = s.waitsForFreeze p ∧ t.expels p = s.expels p := by
  simp only [State.waitsForFreeze, State.inHand, State.expels, State.phaseOf, h, and_self]

/-- The records that the beginning of a restart leaves: the cleared blocks, and the commands that waited for it answered. -/
theorem beginRestart_eq (hm : s.restartMark = true) (hf : s.flight = none) (hx : s.exchange ≠ .restarting) :
    let r := s.restartedWith s.portsOfRestart
    beginRestart s = (r.finished r.waitsForFreeze).finished (r.finished r.waitsForFreeze).expels := by
  rw [beginRestart_of_mark hm hf hx, completeFreezers_eq, completeExpels_eq]

theorem port_restart (h : ∀ k, s.phaseOf p ≠ some (.behindLanding k)) :
    (s.restartedWith s.portsOfRestart).port p = s.port p := port_foldl_viewsGone h _

/-- A command that waited for a freeze, or for a detachment, is done. -/
theorem finishedDone_restart (h : s.waitsForFreeze p = true ∨ s.expels p = true) :
    let r := s.restartedWith s.portsOfRestart
    FinishedDone ((r.finished r.waitsForFreeze).finished (r.finished r.waitsForFreeze).expels) p := by
  intro r
  have elsewhere : ∀ k, s.phaseOf p ≠ some (.behindLanding k) := by
    rcases h with h | h
    · simp [State.phaseOf_of_waitsForFreeze h]
    · obtain ⟨q, b, e⟩ := State.expels_iff.mp h
      simp [e]
  obtain ⟨freezes, expels⟩ := State.commands_of_port (t := r) (port_restart elsewhere)
  by_cases hf : r.waitsForFreeze p = true
  · exact finishedDone_finished_of_done (finishedDone_finished hf)
  · have left : (r.finished r.waitsForFreeze).port p = r.port p := by rw [port_finished, if_neg hf]
    refine finishedDone_finished ?_
    rw [(State.commands_of_port left).2, expels]
    exact h.resolve_left fun hw => hf (freezes.trans hw)

/-- An idle port keeps its Port Unit. -/
theorem port_restart_of_idle (h : (s.port p).unit.busy = none) :
    let r := s.restartedWith s.portsOfRestart
    ((r.finished r.waitsForFreeze).finished (r.finished r.waitsForFreeze).expels).port p = s.port p := by
  intro r
  have idle : s.phaseOf p = none := by simp [State.phaseOf, h]
  have unit : r.port p = s.port p := port_restart (by simp [idle])
  have freezes : s.waitsForFreeze p = false := by simp [State.waitsForFreeze, State.inHand, h]
  have expels : s.expels p = false := by simp [State.expels, idle]
  have left : (r.finished r.waitsForFreeze).port p = r.port p := by
    rw [port_finished, if_neg]
    rw [(State.commands_of_port unit).1, freezes]
    exact Bool.false_ne_true
  rw [port_finished, if_neg, left, unit]
  rw [(State.commands_of_port (left.trans unit)).2, expels]
  exact Bool.false_ne_true

theorem Slot.restarted_eq (r : Slot) :
    r.restarted =
      let kept := r.state = .opened ∨ r.state = .live
      { Slot.cleared with config := if kept then r.config else SlotConfig.cleared, state := if kept then .opened else .unused } := by
  unfold Slot.restarted
  cases r.state <;> simp <;> rfl

end RestartBegins

/-- RESTART sets its mark and stays BUSY. -/
theorem exec_restart {s : State} {p : Port} {n : Byte} (hready : s.ready p) (ht : s.token = some p) :
    exec (.restart p n) s = .next { s.busyWith p .restart n .taken with restartMark := true } :=
  FreezeAndWatch.cycle_token_taken (f := takeRestart) hready ht (by decide) (fun _ => rfl) rfl rfl

/-- Settles O54: RESTART sets its mark alone; the beginning of the restart by the records that each block leaves. -/
theorem restartBegins : Obligations.RestartBegins := by
  refine ⟨fun _ _ _ => exec_restart, fun s hs hm hf hx => ?_⟩
  have begins := beginRestart_eq hm hf hx
  have done (p : Port) := finishedDone_restart (s := s) (p := p)
  have kept (p : Port) := port_restart_of_idle (s := s) (p := p)
  have slot (k : SlotIx) := s.slot_restartedWith s.portsOfRestart k
  dsimp only at begins done kept
  have runs : exec .restartBegin s = .next (beginRestart s) := by
    refine (event_next hs.1).trans (congrArg Host.Outcome.next (State.settle_nil _ ?_))
    rw [begins]
    exact hs.2
  refine ⟨_, runs, ?_⟩
  rw [begins]
  exact ⟨fun k => (slot k).trans (Slot.restarted_eq _), rfl, rfl, rfl, hf, rfl,
    fun p => ⟨PerPort.get_fill _ p, PerPort.get_ofFn _ p, PerPort.get_ofFn _ p, fun h => done p (h.imp_right State.expels_iff.mpr), kept p⟩,
    rfl, rfl, rfl, hm, rfl, rfl, rfl, rfl, rfl, rfl, rfl⟩

end Sys2Proof.Machine
end

section
namespace Sys2Proof.Machine
open Sys2Proof Sys2Proof.Publication Sys2Proof.Views

/-! ### The Control Unit at the end of a landing (R39, R144, R151, R153, R155) -/

section ControlTakes
variable {s t : State} {i : Item} {j k : SlotIx} {js : List SlotIx}

theorem landingEnded_of_running (h : s.exchange = .running ∨ s.restartMark = true) : s.landingEnded = s := by
  rcases h with h | h
  · simp [State.landingEnded, h]
  · simp [State.landingEnded, h]

section
variable (hf : s.flight = none) (hm : s.restartMark = false) (hd : s.due = [])
include hf hm

theorem landingEnded_of_stepping (hx : s.exchange = .stepping) : s.landingEnded =
    match s.task with
    | some (.drain _) => s.drainNext
    | some (.step _) | none => s.becomeFrozen := by
  simp only [State.landingEnded, hf, hm, hx]
  rfl

include hd

theorem landingEnded_of_step (hx : s.exchange = .stepping) (ht : s.task = some (.step i)) : s.landingEnded = s.frozenNow := by
  rw [landingEnded_of_stepping hf hm hx, ht]
  exact s.becomeFrozen_of_due_nil hd

theorem landingEnded_of_marked (hx : s.exchange = .stepping) (ht : s.task = some (.drain k)) (hfm : s.freezeMark = true) :
    s.landingEnded = s.frozenNow := by
  rw [landingEnded_of_stepping hf hm hx, ht]
  exact (if_pos hfm).trans (s.becomeFrozen_of_due_nil hd)

omit hd

theorem landingEnded_of_drain (hx : s.exchange = .stepping) (ht : s.task = some (.drain k)) (hfm : s.freezeMark = false)
    (hr : s.ripe = j :: js) : s.landingEnded = { s with task := some (.drain j) } := by
  rw [landingEnded_of_stepping hf hm hx, ht]
  simp [State.drainNext, hfm, hr]

theorem landingEnded_of_drained (hx : s.exchange = .stepping) (ht : s.task = some (.drain k)) (hfm : s.freezeMark = false)
    (hr : s.ripe = []) :
    s.landingEnded = { s with exchange := .running, task := none }.finished fun q => s.inHand q .resume := by
  rw [landingEnded_of_stepping hf hm hx, ht]
  simp only [State.drainNext, hfm, hr, State.completeAll_eq]
  rfl

end

/-- What the Control Unit makes of `t` at the end of a landing, by the control fields of `s` (`out v` says that it is `v`). -/
def ControlTakes (s t : State) (out : State → Prop) : Prop :=
  (s.exchange = .running ∨ s.restartMark = true → out t) ∧
    (s.restartMark = false → s.due = [] →
      (s.exchange = .freezing → out t.frozenNow) ∧
      (s.exchange = .stepping →
        (∀ i, s.task = some (.step i) → out t.frozenNow) ∧
        (∀ k, s.task = some (.drain k) → s.freezeMark = true → out t.frozenNow) ∧
        (∀ k j js, s.task = some (.drain k) → s.freezeMark = false → s.ripe = j :: js → out { t with task := some (.drain j) }) ∧
        (∀ k, s.task = some (.drain k) → s.freezeMark = false → s.ripe = [] →
          out ({ t with exchange := .running, task := none }.finished fun q => s.inHand q .resume))))

/-- The landing over, `t` has the control fields and the commands of `s`. -/
theorem controlTakes {out : State → Prop} (ht : t = { s with flight := none, slots := t.slots, notes := t.notes })
    (h : (s.exchange = .running ∨ s.restartMark = true) ∨ s.due = [] → out t.landingEnded) : ControlTakes s t out := by
  obtain ⟨flight, mark, due, exchange, task, freezeMark, ripe, hand⟩ : t.flight = none ∧ t.restartMark = s.restartMark ∧
      t.due = s.due ∧ t.exchange = s.exchange ∧ t.task = s.task ∧ t.freezeMark = s.freezeMark ∧ t.ripe = s.ripe ∧
      t.inHand = s.inHand := by
    rw [ht]
    exact ⟨rfl, rfl, rfl, rfl, rfl, rfl, rfl, rfl⟩
  unfold ControlTakes
  rw [← exchange, ← mark, ← due] at h
  rw [← exchange, ← mark, ← due, ← task, ← freezeMark, ← ripe, ← hand]
  refine ⟨fun hx => landingEnded_of_running hx ▸ h (.inl hx), fun hm hd => ?_⟩
  have ends : out t.landingEnded := h (.inr hd)
  refine ⟨fun hx => ?_, fun hx => ⟨fun i ht => ?_, fun k ht hfm => ?_, fun k j js ht hfm hr => ?_, fun k ht hfm hr => ?_⟩⟩
  · rwa [landingEnded_of_freezing flight hx hm, t.becomeFrozen_of_due_nil hd] at ends
  · rwa [landingEnded_of_step flight hm hd hx ht] at ends
  · rwa [landingEnded_of_marked flight hm hd hx ht hfm] at ends
  · rwa [landingEnded_of_drain flight hm hx ht hfm hr] at ends
  · rwa [landingEnded_of_drained flight hm hx ht hfm hr] at ends

end ControlTakes

/-! ### LANDING_END (R16, R39, R56) -/

section LandingEnd
variable {s t : State} {l : Landing} {p : Port} {k : SlotIx} {served : PortSet}

/-- The slots and the notes are no matter of the Control Unit's where no due value goes back to its slot. -/
theorem landingEnded_frame (hd : s.due = []) :
    s.landingEnded = { s with ports := s.landingEnded.ports, exchange := s.landingEnded.exchange
                              freezeMark := s.landingEnded.freezeMark, task := s.landingEnded.task } := by
  have frozen := s.becomeFrozen_of_due_nil hd
  have goesOn : s.drainNext = { s with ports := s.drainNext.ports, exchange := s.drainNext.exchange
                                       freezeMark := s.drainNext.freezeMark, task := s.drainNext.task } := by
    unfold State.drainNext
    split
    · rw [frozen]
      rfl
    · split
      · rfl
      · rw [State.completeAll_frame]
  unfold State.landingEnded
  split
  · rfl
  · split
    · rw [frozen]
      rfl
    · split
      · exact goesOn
      · rw [frozen]
        rfl
      · rw [frozen]
        rfl
    all_goals rfl

theorem landingEnded_with (hf : s.flight = none) (hd : s.due = []) (slots : Table 96 Slot) (notes : PerPort NoteUnit) :
    ({ s with slots := slots, notes := notes } : State).landingEnded = { s.landingEnded with slots := slots, notes := notes } := by
  let t : State := { s with slots := slots, notes := notes }
  show t.landingEnded = _
  by_cases hm : s.restartMark = true
  · rw [landingEnded_of_running (s := t) (.inr hm), landingEnded_of_running (.inr hm)]
  replace hm : s.restartMark = false := Bool.eq_false_of_not_eq_true hm
  cases hx : s.exchange with
  | running => rw [landingEnded_of_running (s := t) (.inl hx), landingEnded_of_running (.inl hx)]
  | freezing =>
    rw [landingEnded_of_freezing (s := t) hf hx hm, landingEnded_of_freezing hf hx hm, t.becomeFrozen_of_due_nil hd,
      s.becomeFrozen_of_due_nil hd]
    rfl
  | stepping =>
    cases ht : s.task with
    | none =>
      rw [landingEnded_of_stepping (s := t) hf hm hx, landingEnded_of_stepping hf hm hx, show t.task = none from ht]
      dsimp only
      rw [t.becomeFrozen_of_due_nil hd, s.becomeFrozen_of_due_nil hd]
      rfl
    | some task =>
      cases task with
      | step i =>
        rw [landingEnded_of_step (s := t) hf hm hd hx ht, landingEnded_of_step hf hm hd hx ht]
        rfl
      | drain k =>
        by_cases hfm : s.freezeMark = true
        · rw [landingEnded_of_marked (s := t) hf hm hd hx ht hfm, landingEnded_of_marked hf hm hd hx ht hfm]
          rfl
        replace hfm : s.freezeMark = false := Bool.eq_false_of_not_eq_true hfm
        cases hr : s.ripe with
        | nil =>
          rw [landingEnded_of_drained (s := t) hf hm hx ht hfm hr, landingEnded_of_drained hf hm hx ht hfm hr]
          rfl
        | cons j js => rw [landingEnded_of_drain (s := t) hf hm hx ht hfm hr, landingEnded_of_drain hf hm hx ht hfm hr]
  | frozen => simp [State.landingEnded, t, hx]
  | restarting => simp [State.landingEnded, t, hx]

/-- With no VIEW waiting for the slot, the completion of its retirement leaves the Port Units. -/
theorem retired_of_unwaited (h : ∀ q, s.phaseOf q ≠ some (.behindLanding k)) :
    s.retired k = { s with slots := (s.retired k).slots, notes := (s.retired k).notes } := by
  have ports : (s.retired k).ports = s.ports := PerPort.ext_get fun q => (port_retired s k q).trans (unitGone_of_not_waiting (h q))
  exact congrArg (fun x => { s.retired k with ports := x }) ports

/-- The completion of a retirement and the Control Unit's taking of the end of a landing stand in no order where no VIEW waits. -/
theorem completeRetirement_landingEnded (hf : s.flight = none) (hr : s.roomToRetire k)
    (hw : ∀ q, s.phaseOf q ≠ some (.behindLanding k)) (hd : (s.exchange = .running ∨ s.restartMark = true) ∨ s.due = []) :
    s.landingEnded.completeRetirement k = (s.retired k).landingEnded := by
  rcases hd with hx | hd
  · rw [landingEnded_of_running hx, landingEnded_of_running (s := s.retired k) hx, completeRetirement_of_room hr]
  · have waits : ∀ q, s.landingEnded.phaseOf q ≠ some (.behindLanding k) := fun q hq =>
      hw q ((State.NoGain.refl s).landingEnded.waits q k hq)
    have frame := landingEnded_frame hd
    have room : s.landingEnded.roomToRetire k := by
      rw [frame]
      exact hr
    have records : (s.landingEnded.retired k).slots = (s.retired k).slots ∧ (s.landingEnded.retired k).notes = (s.retired k).notes := by
      rw [frame]
      exact ⟨rfl, rfl⟩
    have ends : (s.retired k).landingEnded = { s.landingEnded with slots := (s.retired k).slots, notes := (s.retired k).notes } :=
      (congrArg State.landingEnded (retired_of_unwaited hw)).trans (landingEnded_with hf hd _ _)
    rw [completeRetirement_of_room room, retired_of_unwaited waits, records.1, records.2, ends]

theorem reports_landingEnded (hd : (s.exchange = .running ∨ s.restartMark = true) ∨ s.due = []) :
    s.landingEnded.reports = s.reports := by
  rcases hd with hx | hd
  · rw [landingEnded_of_running hx]
  · rw [landingEnded_frame hd]

theorem exec_landingEnd {served : PortSet} (hs : s.settled) (hf : s.flight = some l)
    (hserved : l.served = some served) (hnotified : l.notified = true) (htimed : l.timed = true)
    (e : ({ s with flight := none } : State).landingOver l.offer.slot = t) (hr : t.reports = s.reports) :
    exec .landingEnd s = .next t := by
  have ends : endLanding s = t := by
    rw [endLanding, hf]
    simpa [hserved, hnotified, htimed] using e
  exact (event_next hs.1).trans (by rw [ends, State.settle_nil _ (hr.trans hs.2)])

theorem exec_landingEnd_of_going_on (hs : s.settled) (hf : s.flight = some l)
    (h : l.served = none ∨ l.notified = false ∨ l.timed = false) : exec .landingEnd s = .next s := by
  have goesOn : (l.served.isSome && l.notified && l.timed) = false := by
    rcases h with h | h | h <;> simp [h]
  have stays : endLanding s = s := by
    rw [endLanding, hf]
    simp [goesOn]
  exact (event_next hs.1).trans (by rw [stays, State.settle_nil _ hs.2])

theorem landingOver_of_not_due (h : s.retirementDue k = false) : s.landingOver k = s.landingEnded := by
  rw [State.landingOver, if_neg (by rw [h]; exact Bool.false_ne_true)]

theorem retirementDue_of_free (hf : s.flight = none) (hs : (s.slot k).state = .retiring) (hh : ∀ q, s.holding q k = false) :
    s.retirementDue k = true := State.retirementDue_iff.mpr ⟨hs, hh, by rw [State.landingMark, hf]⟩

theorem landingOver_of_unwaited (h : s.retirementDue k = true) (hw : ∀ q, s.phaseOf q ≠ some (.behindLanding k)) :
    s.landingOver k = s.landingEnded.completeRetirement k := by
  have nobody : s.waitersOn k = [] := by simp [State.waitersOn, List.filter_eq_nil_iff, hw]
  rw [State.landingOver, if_pos h, nobody]

theorem Port.filter_all_eq_singleton {f : Port → Bool} (hp : f p = true) (hq : ∀ q, q ≠ p → f q = false) : Port.all.filter f = [p] := by
  have a := hq .a
  have b := hq .b
  have c := hq .c
  have d := hq .d
  cases p <;> simp_all [Port.all]

/-- A VIEW that waits is granted in RUNNING with nothing in flight. -/
theorem grantWaiting_of_free (hf : s.flight = none) (hx : s.exchange = .running) (hp : s.phaseOf p = some (.behindLanding k))
    (hq : s.endsQuietly p = true) (hv : s.watch.hits .view k (.port p) = false) :
    s.grantWaiting p = (s.withView p k).answered p .done := by
  have goes : (s.landingMark k || s.exchange == .restarting) = false := by simp [State.landingMark, hf, hx]
  rw [grantWaiting_of_behindLanding hp, goes, if_neg Bool.false_ne_true, grantView_of_quiet (busy_of_phaseOf hp) hq hv]

/-- With one VIEW waiting, either it or the completion of the retirement is taken first; neither order with the Control Unit matters
in RUNNING. -/
theorem landingOver_of_waiter (hf : s.flight = none) (h : s.retirementDue k = true) (hp : s.phaseOf p = some (.behindLanding k))
    (hw : ∀ q, q ≠ p → s.phaseOf q ≠ some (.behindLanding k)) (hr : s.roomToRetire k) (hx : s.exchange = .running)
    (hq : s.endsQuietly p = true) (hv : s.watch.hits .view k (.port p) = false) :
    ∃ c, s.landingOver k = { s.retired k with freeCount := c } ∨
      s.landingOver k = { (s.withView p k).answered p .done with freeCount := c } := by
  have waiters : s.waitersOn k = [p] := Port.filter_all_eq_singleton (by simp [hp]) fun q hne => by simp [hw q hne]
  have retires (n : Nat) : ({ s with freeCount := n } : State).landingEnded.completeRetirement k = { s.retired k with freeCount := n } := by
    rw [landingEnded_of_running (s := { s with freeCount := n }) (.inl hx)]
    exact completeRetirement_of_room (s := { s with freeCount := n }) hr
  have grants (n : Nat) :
      ({ s with freeCount := n } : State).grantWaiting p = { (s.withView p k).answered p .done with freeCount := n } :=
    grantWaiting_of_free (s := { s with freeCount := n }) hf hx hp hq hv
  have counted (u : State) (m : Nat) (hu : u = { s with freeCount := u.freeCount }) :
      (u.pick m).2 = { s with freeCount := (u.pick m).2.freeCount } := by
    rw [u.pick_frame, hu]
  have first := counted s 2 rfl
  have second := counted (s.pick 2).2 2 first
  have rests (n : Nat) : ({ s with freeCount := n } : State).landingEnded = { s with freeCount := n } :=
    landingEnded_of_running (.inl hx)
  unfold State.landingOver
  rw [if_pos h, waiters]
  dsimp only [List.length_cons, List.length_nil]
  split
  · next q hq' =>
    obtain rfl : p = q := (List.mem_singleton.mp (List.mem_of_getElem? hq')).symm
    refine ⟨((s.pick 2).2.pick 2).2.freeCount, .inr ?_⟩
    split
    · rw [second, rests, grants]
    · rw [second, grants]
      exact landingEnded_of_running (.inl hx)
  · refine ⟨(s.pick 2).2.freeCount, .inl ?_⟩
    rw [first]
    exact retires _

end LandingEnd

/-- Settles O20: by whether the parts are done, whether the slot is RETIRING, and who holds or waits for it. -/
theorem landingEnds : Obligations.LandingEnds := by
  intro s l served hs hf
  let u : State := { s with flight := none }
  let k := l.offer.slot
  refine ⟨exec_landingEnd_of_going_on hs hf, fun hserved hnotified htimed hstate => ?_, fun hserved hnotified htimed hstate => ?_⟩
  all_goals have ends {t : State} := exec_landingEnd (t := t) hs hf hserved hnotified htimed
  · have undue : u.retirementDue k = false := by
      rw [← Bool.not_eq_true, State.retirementDue_iff]
      exact fun h => hstate h.1
    exact controlTakes (s := s) (t := u) (out := fun t => exec .landingEnd s = .next t) rfl fun hd =>
      ends (landingOver_of_not_due undue) (reports_landingEnded hd)
  · refine ⟨fun hx ⟨q, hq⟩ => ?_, fun hfree hroom => ?_, fun p hp hfree hothers hroom hx hquiet hwatch => ?_⟩
    · have undue : u.retirementDue k = false := by
        rw [← Bool.not_eq_true, State.retirementDue_iff]
        exact fun h => Bool.false_ne_true ((h.2.1 q).symm.trans hq)
      exact ends ((landingOver_of_not_due undue).trans (landingEnded_of_running hx)) rfl
    · have due : u.retirementDue k = true := retirementDue_of_free rfl hstate fun q => (hfree q).1
      have waits : ∀ q, u.phaseOf q ≠ some (.behindLanding k) := fun q => (hfree q).2
      exact controlTakes (s := s) (t := u.retired k) (out := fun t => exec .landingEnd s = .next t) (retired_of_unwaited waits) fun hd =>
        ends ((landingOver_of_unwaited due waits).trans (completeRetirement_landingEnded rfl hroom waits hd))
          (reports_landingEnded (s := u.retired k) hd)
    · have due : u.retirementDue k = true := retirementDue_of_free rfl hstate hfree
      obtain ⟨c, e | e⟩ := landingOver_of_waiter (s := u) rfl due hp hothers hroom hx hquiet hwatch
      · exact ⟨c, .inl (ends e rfl)⟩
      · exact ⟨c, .inr (ends e rfl)⟩

end Sys2Proof.Machine
end

section
namespace Sys2Proof.Machine
open Sys2Proof Sys2Proof.Publication Sys2Proof.Views Sys2Proof.FreezeAndWatch Sys2Proof.PortHealth

/-! ### Notes placed one behind another (R75) -/

section Appended
variable {s : State} {p q : Port} {k : SlotIx} {m n : Nat} {f g : Port → List Note} {l : List Offer} {o : Offer} {i : Ident}

/-- `s` with the notes `f q` at the tail of each port `q`'s queue. -/
def State.appended (s : State) (f : Port → List Note) : State :=
  { s with notes := PerPort.ofFn fun q => { s.noteUnit q with queue := (s.noteUnit q).queue ++ f q } }

/-- Has `q`'s queue, with no LOST note in it, places for `m` ordinary notes more (R75, R77)? -/
def State.spare (s : State) (q : Port) (m : Nat) : Prop :=
  (s.noteUnit q).delivery = .delivering ∧ (∀ x ∈ (s.noteUnit q).queue, x.reason ≠ .lost) ∧ (s.noteUnit q).queue.length + m ≤ 15

theorem State.noteUnit_appended (s : State) (f : Port → List Note) (q : Port) :
    (s.appended f).noteUnit q = { s.noteUnit q with queue := (s.noteUnit q).queue ++ f q } := PerPort.get_ofFn _ q

theorem State.appended_nil (s : State) (h : ∀ q, f q = []) : s.appended f = s := by
  refine congrArg (fun notes => { s with notes := notes }) (PerPort.ext_get fun q => ?_)
  rw [PerPort.get_ofFn, h q, List.append_nil]
  rfl

theorem State.appended_appended (s : State) (f g : Port → List Note) :
    (s.appended f).appended g = s.appended fun q => f q ++ g q := by
  refine congrArg (fun notes => { s with notes := notes }) (PerPort.ext_get fun q => ?_)
  rw [PerPort.get_ofFn, PerPort.get_ofFn, State.noteUnit_appended, List.append_assoc]

theorem State.noted_eq_appended (s : State) (ps : Port → Bool) (n : Port → Note) :
    s.noted ps n = s.appended fun q => if ps q then [n q] else [] := by
  refine congrArg (fun notes => { s with notes := notes }) (PerPort.ext_get fun q => ?_)
  rw [PerPort.get_ofFn, PerPort.get_ofFn]
  cases h : ps q <;> simp [h]

theorem State.spare.roomFor (h : s.spare q (m + 1)) : s.roomFor q = true := by
  obtain ⟨delivers, ordinary, places⟩ := h
  have short : (s.noteUnit q).queue.length < 15 := by omega
  simpa [State.roomFor, delivers, short] using ordinary

/-- Do the notes `f q` fit at the tail of each queue, with `m` places left? -/
def State.fits (s : State) (f : Port → List Note) (m : Nat) : Prop := ∀ q, s.spare q ((f q).length + m)

theorem State.fits.left {h : Port → List Note} (H : s.fits h m) (e : ∀ q, h q = f q ++ g q) : s.fits f m := fun q => by
  obtain ⟨delivers, ordinary, places⟩ := H q
  rw [e, List.length_append] at places
  exact ⟨delivers, ordinary, by omega⟩

/-- Once the first of the notes are placed the others fit still. -/
theorem State.fits.appended {h : Port → List Note} (H : s.fits h m) (e : ∀ q, h q = f q ++ g q)
    (hf : ∀ q, ∀ x ∈ f q, x.reason ≠ .lost) : (s.appended f).fits g m := fun q => by
  obtain ⟨delivers, ordinary, places⟩ := H q
  rw [e, List.length_append] at places
  rw [State.spare, State.noteUnit_appended]
  refine ⟨delivers, fun x hx => (List.mem_append.mp hx).elim (ordinary x) (hf q x), ?_⟩
  rw [List.length_append]
  omega

/-! ### The DROPPED notes of a retirement (R14) -/

/-- How many of the values are `q`'s. -/
def valuesOf (q : Port) (l : List Offer) : Nat := (l.filter fun o => o.source == .port q).length

/-- The DROPPED notes about slot `k` that the publisher `q` of dropped values `l` is told. -/
def State.droppedNotes (s : State) (k : SlotIx) (l : List Offer) (q : Port) : List Note :=
  if s.inside q then List.replicate (valuesOf q l) (s.noteOf .dropped k) else []

theorem valuesOf_cons (q : Port) (o : Offer) (l : List Offer) :
    valuesOf q (o :: l) = (if o.source = .port q then 1 else 0) + valuesOf q l := by
  unfold valuesOf
  rw [List.filter_cons]
  by_cases h : o.source = .port q
  · simp [h]
    omega
  · simp [h]

theorem State.length_droppedNotes (s : State) (k : SlotIx) (l : List Offer) (q : Port) :
    (s.droppedNotes k l q).length = if s.inside q then valuesOf q l else 0 := by
  unfold State.droppedNotes
  split <;> simp

theorem State.reason_droppedNotes (q : Port) (x : Note) (hx : x ∈ s.droppedNotes k l q) : x.reason ≠ .lost := by
  unfold State.droppedNotes at hx
  split at hx
  · rw [List.eq_of_mem_replicate hx]
    exact (by decide : Reason.dropped ≠ Reason.lost)
  · cases hx

theorem State.droppedNotes_cons (s : State) (k : SlotIx) (o : Offer) (l : List Offer) (q : Port) :
    s.droppedNotes k (o :: l) q = s.droppedNotes k [o] q ++ s.droppedNotes k l q := by
  unfold State.droppedNotes
  rw [valuesOf_cons, valuesOf_cons]
  split
  · rw [← List.replicate_add]
    rfl
  · rfl

/-- The publisher of a dropped value is told, where it is inside and has a place for the note. -/
theorem State.tellDropped_of_fits (h : s.fits (s.droppedNotes k [o]) m) :
    s.tellDropped o.source k = s.appended (s.droppedNotes k [o]) := by
  cases hs : o.source with
  | exchange => exact (s.appended_nil fun q => by simp [State.droppedNotes, valuesOf, hs]).symm
  | port p =>
    by_cases hi : s.inside p = true
    · have one : (s.droppedNotes k [o] p).length = 1 := by simp [State.length_droppedNotes, hi, valuesOf, hs]
      have room : s.roomFor p = true := State.spare.roomFor (m := m) (by rw [Nat.add_comm, ← one]; exact h p)
      rw [tellDropped_of_room hi room, State.noted_eq_appended]
      refine congrArg s.appended (funext fun q => ?_)
      by_cases e : q = p
      · simp [e, State.droppedNotes, valuesOf, hs, hi]
      · simp [e, State.droppedNotes, valuesOf, hs, Ne.symm e]
    · rw [State.tellDropped, if_neg hi]
      refine (s.appended_nil fun q => ?_).symm
      by_cases e : q = p
      · simp [e, State.droppedNotes, hi]
      · simp [State.droppedNotes, valuesOf, hs, Ne.symm e]

theorem State.foldl_tellDropped_of_fits (h : s.fits (s.droppedNotes k l) m) :
    l.foldl (fun t o => t.tellDropped o.source k) s = s.appended (s.droppedNotes k l) := by
  induction l generalizing s with
  | nil => exact (s.appended_nil fun q => by simp [State.droppedNotes, valuesOf]).symm
  | cons o l ih =>
    have split := s.droppedNotes_cons k o l
    have rest : (s.appended (s.droppedNotes k [o])).fits (s.droppedNotes k l) m := h.appended split s.reason_droppedNotes
    rw [List.foldl_cons, State.tellDropped_of_fits (h.left split), ih rest, State.appended_appended]
    exact congrArg s.appended (funext fun q => (split q).symm)

end Appended

/-! ### The notes of a retirement (R14, R76) -/

section RetireNotes
variable {s : State} {p q : Port} {k : SlotIx} {m : Nat}

/-- The REQUEST_TIMEOUT notes about slot `k`, one for each requester. -/
def State.timeOutNotes (s : State) (k : SlotIx) (q : Port) : List Note :=
  if (s.slot k).requesters.has q then [s.noteOf .requestTimeout k] else []

/-- The notes of steps 2 to 4 of R14 for port `q`: for its entries, oldest first, for its value that waits, and for its request. -/
def State.retireNotes (s : State) (k : SlotIx) (q : Port) : List Note :=
  s.droppedNotes k (s.queue.filter fun o => o.slot == k) q ++ (s.droppedNotes k (s.waiter k).toList q ++ s.timeOutNotes k q)

/-- What a note says of a slot hangs on the slot's identifier and the time. -/
theorem State.noteOf_congr {t : State} (hi : (t.slot k).config = (s.slot k).config) (ht : t.time = s.time) (r : Reason) :
    t.noteOf r k = s.noteOf r k := by
  rw [State.noteOf, State.noteOf, hi, ht]

theorem State.droppedNotes_congr {t : State} (hi : (t.slot k).config = (s.slot k).config) (ht : t.time = s.time)
    (hh : t.health = s.health) : t.droppedNotes k = s.droppedNotes k := by
  funext l q
  rw [State.droppedNotes, State.droppedNotes, State.noteOf_congr hi ht, State.inside, State.inside, State.healthOf, State.healthOf, hh]

theorem State.config_modSlot {f : Slot → Slot} (hf : (f (s.slot k)).config = (s.slot k).config) :
    ((s.modSlot k f).slot k).config = (s.slot k).config := by
  rw [State.slot_modSlot_self, hf]

theorem State.dropEntries_of_fits (h : s.fits (s.droppedNotes k (s.queue.filter fun o => o.slot == k)) m) :
    s.dropEntries k =
      ({ s with queue := s.queue.filter fun o => o.slot != k } : State).appended
        (s.droppedNotes k (s.queue.filter fun o => o.slot == k)) :=
  State.foldl_tellDropped_of_fits (s := { s with queue := s.queue.filter fun o => o.slot != k }) h

theorem State.dropParked_of_fits (h : s.fits (s.droppedNotes k (s.waiter k).toList) m) :
    s.dropParked k = (s.unwaited k).appended (s.droppedNotes k (s.waiter k).toList) := by
  cases hw : s.waiter k with
  | none =>
    obtain ⟨due, parked⟩ := State.waiter_eq_none.mp hw
    rw [Commands.dropParked_of_unwaited due parked, State.unwaited_of_none hw]
    exact (s.appended_nil fun q => by simp [State.droppedNotes, valuesOf]).symm
  | some o =>
    have config : ((s.unwaited k).slot k).config = (s.slot k).config :=
      State.config_modSlot (s := s) (f := fun r => { r with parked := none }) rfl
    have notes : (s.unwaited k).droppedNotes k = s.droppedNotes k := State.droppedNotes_congr config rfl rfl
    rw [hw] at h
    have fits : (s.unwaited k).fits ((s.unwaited k).droppedNotes k [o]) m := by
      rw [notes]
      exact h
    rw [State.dropParked_of_some hw, State.tellDropped_of_fits fits, notes]
    rfl

theorem State.timeOutRequesters_of_fits (h : s.fits (s.timeOutNotes k) m) :
    s.timeOutRequesters k = (s.appended (s.timeOutNotes k)).modSlot k Slot.endRound := by
  have room : ∀ q, (s.slot k).requesters.has q = true → s.roomFor q = true := fun q hq => by
    have one : (s.timeOutNotes k q).length = 1 := by simp [State.timeOutNotes, hq]
    exact State.spare.roomFor (m := m) (by rw [Nat.add_comm, ← one]; exact h q)
  rw [timeOutRequesters_of_room room, State.noted_eq_appended]
  rfl

/-- `t` is what `s` becomes where the notes `f` are placed, but for what neither the notes nor the reports say. -/
def State.Told (f : Port → List Note) (s t : State) : Prop := t.notes = (s.appended f).notes ∧ t.reports = s.reports

theorem State.Told.trans {f g : Port → List Note} {t u : State} (h : State.Told f s t) (h' : State.Told g t u) :
    State.Told (fun q => f q ++ g q) s u := by
  refine ⟨?_, h'.2.trans h.2⟩
  calc u.notes = (t.appended g).notes := h'.1
    _ = ((s.appended f).appended g).notes := congrArg (fun x => (State.appended { s with notes := x } g).notes) h.1
    _ = _ := by rw [State.appended_appended]

/-- The notes that are to follow fit still. -/
theorem State.Told.fits {f g h : Port → List Note} {t : State} (told : State.Told f s t) (fit : s.fits h m) (e : ∀ q, h q = f q ++ g q)
    (hf : ∀ q, ∀ x ∈ f q, x.reason ≠ .lost) : t.fits g m := fun q => by
  have unit : t.noteUnit q = (s.appended f).noteUnit q := congrArg (fun x => PerPort.get x q) told.1
  rw [State.spare, unit]
  exact fit.appended e hf q

theorem State.fits.modSlot {f : Port → List Note} {g : Slot → Slot} (h : s.fits f m) : (s.modSlot k g).fits f m := h

theorem State.Told.modSlot {f : Port → List Note} {g : Slot → Slot} {t : State} (h : State.Told f s t) :
    State.Told f s (t.modSlot k g) := h

theorem State.Told.of_modSlot {f : Port → List Note} {g : Slot → Slot} {t : State} (h : State.Told f (s.modSlot k g) t) :
    State.Told f s t := h

/-- Do the notes about slot `k` say the same in `s` and in `t`? -/
structure State.SpeaksAlike (k : SlotIx) (s t : State) : Prop where
  config : (t.slot k).config = (s.slot k).config
  requesters : (t.slot k).requesters = (s.slot k).requesters
  time : t.time = s.time
  health : t.health = s.health

theorem State.SpeaksAlike.dropped {t : State} (h : State.SpeaksAlike k s t) : t.droppedNotes k = s.droppedNotes k :=
  State.droppedNotes_congr h.config h.time h.health

theorem State.SpeaksAlike.timeOut {t : State} (h : State.SpeaksAlike k s t) : t.timeOutNotes k = s.timeOutNotes k := by
  funext q
  rw [State.timeOutNotes, State.timeOutNotes, h.requesters, State.noteOf_congr h.config h.time]

theorem State.dropEntries_told (h : s.fits (s.droppedNotes k (s.queue.filter fun o => o.slot == k)) m) :
    State.Told (s.droppedNotes k (s.queue.filter fun o => o.slot == k)) s (s.dropEntries k) := by
  rw [State.dropEntries_of_fits h]
  exact ⟨rfl, rfl⟩

theorem State.dropParked_told (h : s.fits (s.droppedNotes k (s.waiter k).toList) m) :
    State.Told (s.droppedNotes k (s.waiter k).toList) s (s.dropParked k) := by
  rw [State.dropParked_of_fits h]
  exact ⟨rfl, rfl⟩

theorem State.timeOutRequesters_told (h : s.fits (s.timeOutNotes k) m) :
    State.Told (s.timeOutNotes k) s (s.timeOutRequesters k) := by
  rw [State.timeOutRequesters_of_fits h]
  exact ⟨rfl, rfl⟩

theorem State.dropEntries_speaksAlike (s : State) (k : SlotIx) : State.SpeaksAlike k s (s.dropEntries k) := by
  rw [State.dropEntries_frame]
  exact ⟨rfl, rfl, rfl, rfl⟩

theorem State.waiter_dropEntries (s : State) (k : SlotIx) : (s.dropEntries k).waiter k = s.waiter k := by
  rw [State.dropEntries_frame]
  rfl

theorem State.dropParked_speaksAlike (s : State) (k : SlotIx) : State.SpeaksAlike k s (s.dropParked k) := by
  rw [State.dropParked_frame]
  have record : (s.setParked k none).slot k = { s.slot k with parked := none } := State.slot_modSlot_self s k _
  exact ⟨(congrArg Slot.config record).trans rfl, (congrArg Slot.requesters record).trans rfl, rfl, rfl⟩

/-- With room for them, steps 1 to 5 of R14 place their notes and report nothing. -/
theorem State.retireSteps_told (h : s.fits (s.retireNotes k) m) : State.Told (s.retireNotes k) s (s.retireSteps k) := by
  have record : (s.modSlot k fun r => { r with state := .retiring }).slot k = _ := State.slot_modSlot_self s k _
  have marks : State.SpeaksAlike k s (s.modSlot k fun r => { r with state := .retiring }) :=
    ⟨(congrArg Slot.config record).trans rfl, (congrArg Slot.requesters record).trans rfl, rfl, rfl⟩
  have waits : (s.modSlot k fun r => { r with state := .retiring }).waiter k = s.waiter k :=
    congrArg (Option.or _) ((congrArg Slot.parked record).trans rfl)
  have told : State.Told (s.retireNotes k) (s.modSlot k fun r => { r with state := .retiring })
      (((s.modSlot k fun r => { r with state := .retiring }).dropEntries k).dropParked k |>.timeOutRequesters k) := by
    have fit : (s.modSlot k fun r => { r with state := .retiring }).fits (s.retireNotes k) m := h.modSlot
    have entries : s.queue = (s.modSlot k fun r => { r with state := .retiring }).queue := rfl
    unfold State.retireNotes at fit ⊢
    rw [entries, ← waits, ← marks.dropped, ← marks.timeOut] at fit ⊢
    generalize (s.modSlot k fun r => { r with state := .retiring }) = t at fit ⊢
    have first := State.dropEntries_told (fit.left fun _ => rfl)
    have fit' := first.fits fit (fun _ => rfl) t.reason_droppedNotes
    have alike := t.dropEntries_speaksAlike k
    refine first.trans ?_
    rw [← t.waiter_dropEntries k, ← alike.dropped, ← alike.timeOut] at fit' ⊢
    generalize t.dropEntries k = u at fit' ⊢
    have second := State.dropParked_told (fit'.left fun _ => rfl)
    have fit'' := second.fits fit' (fun _ => rfl) u.reason_droppedNotes
    refine second.trans ?_
    rw [← (u.dropParked_speaksAlike k).timeOut] at fit'' ⊢
    exact State.timeOutRequesters_told fit''
  exact told.of_modSlot.modSlot

end RetireNotes
end Sys2Proof.Machine
end

section
namespace Sys2Proof.Machine
open Sys2Proof Sys2Proof.Publication Sys2Proof.Views Sys2Proof.FreezeAndWatch Sys2Proof.PortHealth

/-! ### RETIRE_SLOT of a slot on which values and requests wait (R14, R16) -/

section Retired
variable {s : State} {p q : Port} {k j : SlotIx}

theorem State.port_completeRetirement (s : State) (k : SlotIx) (q : Port) : (s.completeRetirement k).port q = unitGone s k q := by
  have gone (t : State) : (t.viewsGone k).port q = unitGone t k q := by
    rw [viewsGone_eq, State.port, PerPort.get_ofFn]
  have told : (s.tell (s.subscribers k) .retired k).port q = s.port q := by rw [State.port, Notes.ports_tell, State.port]
  rw [State.completeRetirement, gone, unitGone, unitGone, State.phaseOf, State.phaseOf, State.port_modSlot, State.port_sealNotes, told]

/-- A port whose VIEW does not wait behind a landing keeps its Port Unit when a retirement completes. -/
theorem State.port_testRetirement (h : ∀ k, s.phaseOf p ≠ some (.behindLanding k)) : (s.testRetirement k).port p = s.port p := by
  unfold State.testRetirement
  split
  · exact (s.port_completeRetirement k p).trans (unitGone_of_not_waiting (h k))
  · rfl

theorem State.slots_testRetirement_of_done (hs : (s.slot k).state = .retiring) (hh : ∀ q, s.holding q k = false)
    (hl : s.landingMark k = false) : (s.testRetirement k).slots = s.slots.set k Slot.cleared := by
  rw [State.testRetirement, if_pos (State.retirementDue_iff.mpr ⟨hs, hh, hl⟩), State.completeRetirement_frame]

/-- A retirement, completed or not, changes the slot, what waits for it, the Notification Queues, the Port Units and the reports. -/
theorem State.retire_frame (s : State) (k : SlotIx) :
    let t := (s.retireSteps k).testRetirement k
    t = { s with
      queue := s.queue.filter fun o => o.slot != k
      due := s.due.filter fun o => o.slot != k
      ripe := if (s.waiter k).isSome then s.ripe.filter fun j => j != k else s.ripe
      slots := t.slots, ports := t.ports, notes := t.notes, reports := t.reports } := by
  intro t
  refine ((s.retireSteps k).testRetirement_frame k).trans ?_
  exact congrArg (fun u => { u with ports := t.ports, slots := t.slots, notes := t.notes, reports := t.reports }) (s.retireSteps_frame k)

theorem State.slots_retire_of_use (h : (∃ q, s.holding q k = true) ∨ s.landingMark k = true) :
    ((s.retireSteps k).testRetirement k).slots = s.slots.set k (s.slot k).retiredFrom := by
  rw [testRetirement_of_use, State.slots_retireSteps]
  rw [State.retireSteps_frame]
  exact h

theorem State.slot_retireSteps_self (s : State) (k : SlotIx) : (s.retireSteps k).slot k = (s.slot k).retiredFrom := by
  rw [State.slot, State.slots_retireSteps, Table.get_set_self]

theorem State.unused_retireSteps (hh : ∀ q, s.holding q k = false) (hl : s.landingMark k = false) :
    (∀ q, (s.retireSteps k).holding q k = false) ∧ (s.retireSteps k).landingMark k = false := by
  rw [State.retireSteps_frame]
  exact ⟨hh, hl⟩

theorem State.slots_retire_of_done (hh : ∀ q, s.holding q k = false) (hl : s.landingMark k = false) :
    ((s.retireSteps k).testRetirement k).slots = s.slots.set k Slot.cleared := by
  obtain ⟨unheld, unmarked⟩ := State.unused_retireSteps hh hl
  rw [State.slots_testRetirement_of_done (by rw [State.slot_retireSteps_self]; rfl) unheld unmarked, State.slots_retireSteps,
    table_set_set]

end Retired

section RetireCommand
variable {s : State} {p : Port} {k : SlotIx} {n : Byte}

/-- An accepted RETIRE_SLOT that the watch does not match. -/
theorem exec_retireSlot_unwatched (h : s.ready p) (ht : s.token = some p) (hk : k.val = n.toNat)
    (hs : (s.slot k).state = .opened ∨ (s.slot k).state = .live) (hw : s.watch.hits .config k (.port p) = false) :
    exec (.retireSlot p n) s =
      .next (State.answered (((s.busyWith p .retireSlot n .taken).retireSteps k).testRetirement k) p .done).settle := by
  have retires := takeRetire_of_taking (s := s.busyWith p .retireSlot n .taken) (p := p) (checkSlot_of_taking hk hs)
  have busy := s.busyWith_busy p .retireSlot n .taken
  have watch : (s.busyWith p .retireSlot n .taken).watch = s.watch := rfl
  have takes : takeCommand .retireSlot p n (s.busyWith p .retireSlot n .taken) = _ := (if_pos ht).trans retires
  have cycle := cycle_command (c := .retireSlot) (n := n) h (by decide)
  rw [takes] at cycle
  refine cycle.trans ?_
  generalize s.busyWith p .retireSlot n .taken = b at busy watch
  have steps := b.retireSteps_frame k
  have frame := b.retire_frame k
  dsimp only at frame
  have unit : ((b.retireSteps k).testRetirement k).port p = b.port p := by
    have same : (b.retireSteps k).port p = b.port p := by rw [steps]; rfl
    refine (State.port_testRetirement fun j => ?_).trans same
    rw [State.phaseOf, same, busy]
    nofun
  have kept : ((b.retireSteps k).testRetirement k).watch = s.watch := by
    rw [frame]
    exact watch
  rw [State.post_busy (by rw [unit]; exact busy), State.offerAct_unwatched]
  have answered (t : State) : (t.answered p .done).watch = t.watch := rfl
  rw [answered, kept]
  exact hw

end RetireCommand
end Sys2Proof.Machine
end

section
namespace Sys2Proof.Machine
open Sys2Proof Sys2Proof.Publication Sys2Proof.Views Sys2Proof.FreezeAndWatch Sys2Proof.PortHealth

/-! ### The notes of a RETIRE_SLOT with room for them (R14, R16, R76) -/

section RetireNotesPlaced
variable {s u : State} {p q : Port} {k : SlotIx} {m : Nat}

/-- How many DROPPED notes the retirement of slot `k` has for `q`. -/
def State.droppedCount (s : State) (k : SlotIx) (q : Port) : Nat :=
  if s.inside q = true then
    (s.queue.filter fun o => o.slot == k && o.source == .port q).length +
      if (s.waiter k).any (fun o => o.source == .port q) then 1 else 0
  else 0

theorem valuesOf_toList (q : Port) (o : Option Offer) :
    valuesOf q o.toList = if o.any (fun o => o.source == .port q) then 1 else 0 := by
  cases o with
  | none => rfl
  | some o => by_cases h : o.source = .port q <;> simp [valuesOf, h]

theorem valuesOf_filter (q : Port) (k : SlotIx) (l : List Offer) :
    valuesOf q (l.filter fun o => o.slot == k) = (l.filter fun o => o.slot == k && o.source == .port q).length := by
  simp [valuesOf, List.filter_filter, Bool.and_comm]

theorem State.retireNotes_eq (s : State) (k : SlotIx) (q : Port) :
    s.retireNotes k q = List.replicate (s.droppedCount k q) (s.noteOf .dropped k) ++
      if (s.slot k).requesters.has q = true then [s.noteOf .requestTimeout k] else [] := by
  rw [State.retireNotes, ← List.append_assoc]
  congr 1
  unfold State.droppedNotes State.droppedCount
  split
  · rw [← List.replicate_add, valuesOf_filter, valuesOf_toList]
  · rfl

theorem State.reason_retireNotes (s : State) (k : SlotIx) (q : Port) :
    ∀ x ∈ s.retireNotes k q, x.reason = .dropped ∨ x.reason = .requestTimeout := by
  intro x hx
  rw [State.retireNotes_eq, List.mem_append] at hx
  rcases hx with hx | hx
  · exact .inl (by rw [List.eq_of_mem_replicate hx]; rfl)
  · split at hx
    · exact .inr (by rw [List.mem_singleton.mp hx]; rfl)
    · cases hx

theorem State.length_retireNotes_le (s : State) (k : SlotIx) (q : Port) :
    (s.retireNotes k q).length ≤ s.droppedCount k q + 1 := by
  rw [State.retireNotes_eq, List.length_append, List.length_replicate]
  split <;> simp

/-- The queues have room for the notes of the retirement of slot `k`, and hold no RETIRED note about it. -/
def State.roomForRetirement (s : State) (k : SlotIx) : Prop :=
  ∀ q, (s.noteUnit q).delivery = .delivering ∧ (∀ m ∈ (s.noteUnit q).queue, m.reason ≠ .lost) ∧
    (s.noteUnit q).queue.length + s.droppedCount k q + 2 ≤ 15 ∧
    ∀ m ∈ (s.noteUnit q).queue, m.reason = .retired → m.slot ≠ k

theorem State.roomForRetirement.fits (h : s.roomForRetirement k) : s.fits (s.retireNotes k) 1 := fun q => by
  obtain ⟨delivers, ordinary, places, -⟩ := h q
  have few := s.length_retireNotes_le k q
  exact ⟨delivers, ordinary, by omega⟩

theorem State.noteUnit_retireSteps (h : s.roomForRetirement k) (q : Port) :
    (s.retireSteps k).noteUnit q = { s.noteUnit q with queue := (s.noteUnit q).queue ++ s.retireNotes k q } := by
  rw [State.noteUnit, (State.retireSteps_told h.fits).1]
  exact s.noteUnit_appended (s.retireNotes k) q

theorem State.roomToRetire_retireSteps (h : s.roomForRetirement k) : (s.retireSteps k).roomToRetire k := by
  intro q _
  obtain ⟨-, -, -, fresh⟩ := h q
  have ordinary (q : Port) : ∀ x ∈ s.retireNotes k q, x.reason ≠ .lost := fun x hx e => by
    rcases s.reason_retireNotes k q x hx with hr | hr <;> exact nomatch hr.symm.trans e
  have place : (s.retireSteps k).fits (fun _ => []) 1 :=
    (State.retireSteps_told h.fits).fits h.fits (fun q => (List.append_nil _).symm) ordinary
  refine ⟨State.spare.roomFor (m := 0) (place q), ?_⟩
  rw [State.noteUnit_retireSteps h]
  intro m hm hr
  rcases List.mem_append.mp hm with hm | hm
  · exact fresh m hm hr
  · rcases s.reason_retireNotes k q m hm with e | e <;> exact nomatch e.symm.trans hr

theorem State.subscribes_retireSteps (h : s.roomForRetirement k) (q : Port) :
    (s.retireSteps k).subscribes k q = s.subscribes k q := by
  have health : (s.retireSteps k).inside q = s.inside q := by rw [State.retireSteps_frame]; rfl
  have config : ((s.retireSteps k).slot k).config = (s.slot k).config := by rw [State.slot_retireSteps_self]; rfl
  rw [State.subscribes, State.subscribes, health, config, State.noteUnit_retireSteps h]
  rfl

/-- Where the slot is in use, its retirement goes no further for now. -/
theorem State.noteUnit_retire_of_use (h : s.roomForRetirement k) (use : (∃ q, s.holding q k = true) ∨ s.landingMark k = true)
    (q : Port) :
    ((s.retireSteps k).testRetirement k).noteUnit q =
      { s.noteUnit q with queue := (s.noteUnit q).queue ++ s.retireNotes k q } := by
  rw [testRetirement_of_use, State.noteUnit_retireSteps h]
  rw [State.retireSteps_frame]
  exact use

theorem State.retire_of_done (h : s.roomForRetirement k) (hh : ∀ q, s.holding q k = false) (hl : s.landingMark k = false) :
    (s.retireSteps k).testRetirement k = (s.retireSteps k).retired k := by
  obtain ⟨unheld, unmarked⟩ := State.unused_retireSteps hh hl
  exact testRetirement_of_done (by rw [State.slot_retireSteps_self]; rfl) unheld unmarked (State.roomToRetire_retireSteps h)

theorem State.noteUnit_retire_of_done (h : s.roomForRetirement k) (hh : ∀ q, s.holding q k = false)
    (hl : s.landingMark k = false) (q : Port) :
    (((s.retireSteps k).testRetirement k).noteUnit q).queue =
      sealedFor k ((s.noteUnit q).queue ++ s.retireNotes k q ++
        if s.subscribes k q = true then [s.noteOf .retired k] else []) := by
  have note : (s.retireSteps k).noteAbout .retired k ((s.retireSteps k).slot k).config.identifier = s.noteOf .retired k :=
    State.noteOf_congr (t := s.retireSteps k) (by rw [State.slot_retireSteps_self]; rfl) (by rw [State.retireSteps_frame]) .retired
  rw [State.retire_of_done h hh hl, noteUnit_retired, State.subscribes_retireSteps h, note, State.noteUnit_retireSteps h]
  split
  · rfl
  · rw [List.append_nil]

theorem State.reports_retire (h : s.roomForRetirement k) : ((s.retireSteps k).testRetirement k).reports = s.reports := by
  have told := (State.retireSteps_told h.fits).2
  by_cases due : (s.retireSteps k).retirementDue k = true
  · have kept (t : State) : (t.retired k).reports = t.reports := rfl
    rw [State.testRetirement, if_pos due, completeRetirement_of_room (State.roomToRetire_retireSteps h), kept, told]
  · rw [State.testRetirement, if_neg due, told]

end RetireNotesPlaced

section RetireRemoves
variable {s : State} {p : Port} {k : SlotIx} {n : Byte}

/-- A command that a block has carried out is finished with DONE, whatever its reports come to. -/
theorem State.finishedDone_answered (s : State) (p : Port) : FinishedDone (s.answered p .done).settle p := by
  have unit : (s.answered p .done).port p =
      { s.port p with unit := { (s.port p).unit with busy := none, result := .done, done := true } } := PerPort.get_set_self _ _ _
  refine finishedDone_settle ?_
  rw [FinishedDone, unit]
  exact ⟨rfl, rfl, rfl⟩

/-- An answer and the taking of the reports change the Port Units, the reports and what the Health Unit keeps. -/
theorem State.settle_answered_frame (X : State) (p : Port) :
    let t := (X.answered p .done).settle
    t = { X with ports := t.ports, reports := [], health := t.health, detachQueue := t.detachQueue, freeCount := t.freeCount } := by
  intro t
  have frame : t = _ := (X.answered p .done).settle_frame
  have settled : (X.answered p .done).settle = t := rfl
  rw [settled] at frame
  generalize t = u at frame ⊢
  exact frame

/-- Is slot `k` held, or a landing in progress on it, so that its retirement cannot be complete (R16)? -/
def State.inUse (s : State) (k : SlotIx) : Prop := (∃ q, s.holding q k = true) ∨ s.landingMark k = true

theorem State.not_inUse_iff : ¬s.inUse k ↔ (∀ q, s.holding q k = false) ∧ s.landingMark k = false := by simp [State.inUse]

/-- What the retirement of slot `k` makes of `s`, but for the Port Units. -/
structure State.RetiresTo (s : State) (k : SlotIx) (t : State) : Prop where
  queue : t.queue = s.queue.filter fun o => o.slot != k
  due : t.due = s.due.filter fun o => o.slot != k
  ripe : t.ripe = if (s.waiter k).isSome then s.ripe.filter fun j => j != k else s.ripe
  slots_used : s.inUse k → t.slots = s.slots.set k (s.slot k).retiredFrom
  slots_done : ¬s.inUse k → t.slots = s.slots.set k Slot.cleared
  kept : t.holds = s.holds ∧ t.flight = s.flight ∧ t.exchange = s.exchange ∧ t.time = s.time ∧ t.token = s.token ∧
    t.watch = s.watch ∧ t.lostOwners = s.lostOwners ∧ t.holdTimeout = s.holdTimeout
  health : s.roomForRetirement k → t.health = s.health
  notes_used : s.roomForRetirement k → s.inUse k → ∀ q, (t.noteUnit q).queue = (s.noteUnit q).queue ++ s.retireNotes k q
  notes_done : s.roomForRetirement k → ¬s.inUse k → ∀ q, (t.noteUnit q).queue =
    sealedFor k ((s.noteUnit q).queue ++ s.retireNotes k q ++ if s.subscribes k q = true then [s.noteOf .retired k] else [])

theorem State.retiresTo_retire (s : State) (k : SlotIx) : s.RetiresTo k ((s.retireSteps k).testRetirement k) := by
  have frame := s.retire_frame k
  have used : s.inUse k → _ := State.slots_retire_of_use
  have done (h : ¬s.inUse k) := State.slots_retire_of_done (State.not_inUse_iff.mp h).1 (State.not_inUse_iff.mp h).2
  have notes_used (room : s.roomForRetirement k) (use : s.inUse k) := State.noteUnit_retire_of_use room use
  have notes_done (room : s.roomForRetirement k) (h : ¬s.inUse k) :=
    State.noteUnit_retire_of_done room (State.not_inUse_iff.mp h).1 (State.not_inUse_iff.mp h).2
  dsimp only at frame
  generalize (s.retireSteps k).testRetirement k = t at *
  constructor
  case slots_used => exact used
  case slots_done => exact done
  case notes_used => exact fun room use q => by rw [notes_used room use]
  case notes_done => exact notes_done
  case kept =>
    rw [frame]
    exact ⟨rfl, rfl, rfl, rfl, rfl, rfl, rfl, rfl⟩
  all_goals
    rw [frame]
  exact fun _ => rfl

/-- The answer and the taking of the reports leave what the retirement makes of the state. -/
theorem State.RetiresTo.answered {t : State} (h : s.RetiresTo k t) (quiet : s.roomForRetirement k → t.reports = []) :
    s.RetiresTo k (t.answered p .done).settle := by
  have frame := t.settle_answered_frame p
  have same (room : s.roomForRetirement k) : (t.answered p .done).settle.health = t.health := by
    rw [State.settle_nil (t.answered p .done) (quiet room)]
    rfl
  dsimp only at frame
  generalize (t.answered p .done).settle = u at frame same
  have notes (q : Port) : u.noteUnit q = t.noteUnit q := congrArg (fun x => PerPort.get x q) (by rw [frame] : u.notes = t.notes)
  have slots : u.slots = t.slots := by rw [frame]
  exact {
    queue := .trans (by rw [frame]) h.queue
    due := .trans (by rw [frame]) h.due
    ripe := .trans (by rw [frame]) h.ripe
    slots_used := fun use => slots.trans (h.slots_used use)
    slots_done := fun done => slots.trans (h.slots_done done)
    kept := by
      rw [frame]
      exact h.kept
    health := fun room => (same room).trans (h.health room)
    notes_used := fun room use q => by rw [notes, h.notes_used room use]
    notes_done := fun room done q => by rw [notes, h.notes_done room done] }

/-- A BUSY command has no part in what a retirement makes of the state. -/
theorem State.RetiresTo.of_busyWith {t : State} {c : Command} {ph : Phase} (h : (s.busyWith p c n ph).RetiresTo k t) :
    s.RetiresTo k t :=
  ⟨h.queue, h.due, h.ripe, h.slots_used, h.slots_done, h.kept, h.health, h.notes_used, h.notes_done⟩

theorem exec_retireSlot_retiresTo (h : s.ready p) (ht : s.token = some p) (hk : k.val = n.toNat)
    (hs : (s.slot k).state = .opened ∨ (s.slot k).state = .live) (hw : s.watch.hits .config k (.port p) = false) :
    ∃ t, exec (.retireSlot p n) s = .next t ∧ FinishedDone t p ∧ s.RetiresTo k t := by
  have executed := exec_retireSlot_unwatched h ht hk hs hw
  obtain ⟨⟨-, quiet⟩, -⟩ := h
  exact ⟨_, executed, State.finishedDone_answered _ p, .of_busyWith (.answered (State.retiresTo_retire _ k) fun room =>
    (State.reports_retire room).trans quiet)⟩

theorem State.RetiresTo.slot_ne {t : State} {j : SlotIx} (h : s.RetiresTo k t) (hj : j ≠ k) : t.slot j = s.slot j := by
  by_cases use : s.inUse k
  · rw [State.slot, h.slots_used use, Table.get_set_ne _ hj]
    rfl
  · rw [State.slot, h.slots_done use, Table.get_set_ne _ hj]
    rfl

theorem State.RetiresTo.slot_used {t : State} (h : s.RetiresTo k t) (use : s.inUse k) : t.slot k = (s.slot k).retiredFrom := by
  rw [State.slot, h.slots_used use, Table.get_set_self]

theorem State.RetiresTo.slot_done {t : State} (h : s.RetiresTo k t) (use : ¬s.inUse k) : t.slot k = Slot.cleared := by
  rw [State.slot, h.slots_done use, Table.get_set_self]

/-- Nothing waits in the slot's record, whether its retirement is complete or not. -/
theorem State.RetiresTo.nothing_waits {t : State} (h : s.RetiresTo k t) :
    (t.slot k).parked = none ∧ (t.slot k).requesters = PortSet.empty ∧ (t.slot k).deadline = none ∧ (t.slot k).freshness = none := by
  by_cases use : s.inUse k
  · rw [h.slot_used use]
    exact ⟨rfl, rfl, rfl, rfl⟩
  · rw [h.slot_done use]
    exact ⟨rfl, rfl, rfl, rfl⟩

theorem State.RetiresTo.mem_ripe {t : State} {j : SlotIx} (h : s.RetiresTo k t) (hj : j ≠ k) : j ∈ t.ripe ↔ j ∈ s.ripe := by
  rw [h.ripe]
  split <;> simp [hj]

theorem State.RetiresTo.not_mem_ripe {t : State} (h : s.RetiresTo k t) (hp : (s.slot k).parked.isSome = true) : k ∉ t.ripe := by
  have waits : (s.waiter k).isSome = true := by
    rw [State.waiter, Option.isSome_or, hp, Bool.or_true]
  rw [h.ripe, if_pos waits]
  simp

/-- Is the retirement of slot `k` complete as soon as it begins? -/
theorem State.completesAtOnce_iff : ((Port.all.all fun q => !s.holding q k) && !s.landingMark k) = true ↔ ¬s.inUse k := by
  rw [State.not_inUse_iff]
  simp

/-- Settles O39: steps 1 to 5 of R14 leave `Slot.retiredFrom` of the record, the test for completion clears it where the slot is not in
use, and each part has its notes. -/
theorem retireRemovesWhatWaits : Obligations.RetireRemovesWhatWaits := by
  intro s p n k hready htoken hk hs hw
  obtain ⟨t, executed, ⟨idle, result, -⟩, retires⟩ := exec_retireSlot_retiresTo hready htoken hk hs hw
  obtain ⟨parked, requesters, deadline, freshness⟩ := retires.nothing_waits
  obtain ⟨holds, flight, exchange, time, token, watch, lostOwners, holdTimeout⟩ := retires.kept
  refine ⟨t, executed, idle, result, retires.queue, retires.due, parked, requesters, deadline, freshness, fun j hj => retires.slot_ne hj,
    holds, flight, exchange, time, token, watch, lostOwners, holdTimeout, fun j hj => retires.mem_ripe hj, retires.not_mem_ripe,
    fun use => ?_, fun hh hl => retires.slot_done (State.not_inUse_iff.mpr ⟨hh, hl⟩), ?_⟩
  · rw [retires.slot_used use]
    exact ⟨rfl, rfl, rfl, rfl, rfl, rfl, rfl⟩
  · intro done i waiting dropped room
    have room : s.roomForRetirement k := room
    refine ⟨fun q => ?_, retires.health room⟩
    by_cases use : s.inUse k
    · have going : ¬done = true := fun e => State.completesAtOnce_iff.mp e use
      rw [retires.notes_used room use, State.retireNotes_eq, ← List.append_assoc]
      exact (if_neg going).symm
    · rw [retires.notes_done room use, State.retireNotes_eq, ← List.append_assoc (s.noteUnit q).queue]
      exact (if_pos (State.completesAtOnce_iff.mpr use)).symm

end RetireRemoves
end Sys2Proof.Machine
end
